-- ==== Sys2Proof/Word.lean ====
section
/-! DEFINITION. The FSHD's two value widths: the 32-bit register and record word (`REG_W`, `OFF_W` of
00_scope.md R7) and the byte of the input buffer. -/

namespace Sys2Proof

/-- A byte of the input buffer (20_memory.md R70). -/
abbrev Byte := BitVec 8

/-- A host register, a record word or an offset as it is stored (00_scope.md R7). -/
abbrev Word := BitVec 32

end Sys2Proof
end

