-- ==== Sys2Proof/Config.lean ====
section
/-! DEFINITION. The implementation parameters of 00_scope.md R7. R7 makes them arguments of the model, so a
`Params` is plain data that the state carries unchanged; the OPEN ones are opaque constants here, so that no
proof can see a value of them. -/

namespace Sys2Proof

/-- The parameters an implementation fixes (00_scope.md R7). -/
structure Params where
  /-- `IBUF_CAP`, the input buffer's capacity in bytes. -/
  ibufCap : Nat
  /-- `OUT_DEPTH`, the output FIFO's capacity in words. -/
  outDepth : Nat
  /-- `OGG_ADV_ADJ`, what the Ogg scan subtracts from the page size when it advances. -/
  oggAdvAdj : Nat
  /-- `OPUS_TOC_OFFSET`, where the embedded TOC byte stands relative to the magic, or `none`. -/
  opusTocOffset : Option Nat
  deriving DecidableEq, Repr

/-- OPEN (D3): any natural number; `params` below brings it into `1 <= IBUF_CAP <= 2^31`. -/
opaque Config.ibufCapRaw : Nat

/-- OPEN (D7): any natural number; `params` below brings it to `OUT_DEPTH >= 73`. -/
opaque Config.outDepthRaw : Nat

/-- OPEN (D27): `none` or a natural number. -/
opaque Config.opusTocOffset : Option Nat

/-- The parameters of the block that `State.reset` describes: every OPEN one open over exactly the range R7
gives it, `OGG_ADV_ADJ` at its default 0 (D23). A state with other parameters is a block built with them. -/
def Config.params : Params where
  ibufCap := Config.ibufCapRaw % 2 ^ 31 + 1
  outDepth := Config.outDepthRaw + 73
  oggAdvAdj := 0
  opusTocOffset := Config.opusTocOffset

end Sys2Proof
end

