-- ==== Sys2Proof/Syntax.lean ====
section
/-! DEFINITION. The FSHD's commands: one constructor per row of the opcode map (30_encoding.md R101,
spec/opcode_table.json). A command word holds no operands (R100); they are the values of ARG0 and ARG1 (R103). -/

namespace Sys2Proof

/-- The 19 commands of 30_encoding.md R101. -/
inductive Instr
  | nop
  | fifoClear
  | extract
  | extractBuf
  | adtsSync
  | adtsDecode
  | adtsScan
  | mp3Sync
  | mp3Decode
  | mp3Scan
  | id3Find
  | xingDetect
  | lameWindow
  | oggSync
  | oggDecode
  | oggScan
  | opusheadFind
  | opustagsTest
  | tocDecode
  deriving DecidableEq, Repr

end Sys2Proof
end

