-- ==== Sys2Proof/WellFormed.lean ====
section
/-! DEFINITION. What is well formed: a command word (30_encoding.md R100, R102) and a set of implementation
parameters (00_scope.md R7). An `Instr` has no operands, so every one of them is well formed. -/

namespace Sys2Proof

/-- The 19 values of the OPC field that 30_encoding.md R101 gives a command. -/
def legalOpcodes : List Nat :=
  [0x00, 0x01, 0x08, 0x09, 0x10, 0x11, 0x12, 0x20, 0x21, 0x22, 0x23, 0x24, 0x25,
   0x30, 0x31, 0x32, 0x40, 0x41, 0x42]

/-- RSVD, bits 31:8 of a command word, must be 0 (R100). -/
def reservedBitsZero (w : Word) : Bool := w.toNat / 256 == 0

/-- OPC, bits 7:0 of a command word, must be one of the 19 opcodes (R101). -/
def opcodeKnown (w : Word) : Bool := legalOpcodes.contains (w.toNat % 256)

/-- A legal command word: the complement of R102's illegal words. -/
def wordWellFormed (w : Word) : Bool := reservedBitsZero w && opcodeKnown w

/-- Every command is well formed: the command word has no operand field to be wrong (R100). -/
def Instr.wellFormed (_ : Instr) : Bool := true

/-- The ranges of 00_scope.md R7. -/
def Params.wellFormed (p : Params) : Bool :=
  decide (1 ≤ p.ibufCap) && decide (p.ibufCap ≤ 2 ^ 31) && decide (73 ≤ p.outDepth) && decide (p.oggAdvAdj ≤ 1)

end Sys2Proof
end

