-- ==== Sys2Proof/Decode.lean ====
section
/-! DEFINITION. The command word's decoder and encoder (30_encoding.md R100 to R102). A word written to CMD is a
32-bit value with no byte lanes (20_memory.md R74), so the decoder reads a `Word`. -/

namespace Sys2Proof

/-- Why a command word is illegal (30_encoding.md R102). -/
inductive Illegal
  /-- RSVD, bits 31:8, is not 0. -/
  | reservedBits
  /-- OPC, bits 7:0, is none of the 19 opcodes of R101. -/
  | unknownOpcode (opc : Byte)
  deriving DecidableEq, Repr

/-- What a command word is: a command, or illegal for a named reason. -/
inductive Decoded
  | command (i : Instr)
  | illegal (why : Illegal)
  deriving DecidableEq, Repr

/-- The opcode map of 30_encoding.md R101, row by row. -/
def opcodeMap : List (Byte × Instr) :=
  [(0x00, .nop), (0x01, .fifoClear),
   (0x08, .extract), (0x09, .extractBuf),
   (0x10, .adtsSync), (0x11, .adtsDecode), (0x12, .adtsScan),
   (0x20, .mp3Sync), (0x21, .mp3Decode), (0x22, .mp3Scan),
   (0x23, .id3Find), (0x24, .xingDetect), (0x25, .lameWindow),
   (0x30, .oggSync), (0x31, .oggDecode), (0x32, .oggScan),
   (0x40, .opusheadFind), (0x41, .opustagsTest), (0x42, .tocDecode)]

/-- The command an OPC value stands for, if any. -/
def decodeOpcode (opc : Byte) : Option Instr := opcodeMap.lookup opc

/-- The OPC field, bits 7:0 of a command word (R100). -/
def opcField (w : Word) : Byte := w.extractLsb' 0 8

/-- The RSVD field, bits 31:8 of a command word (R100). -/
def rsvdField (w : Word) : BitVec 24 := w.extractLsb' 8 24

/-- Decode a command word: total, and every illegal word is rejected by name (R102). -/
def decode (w : Word) : Decoded :=
  if rsvdField w = 0 then
    match decodeOpcode (opcField w) with
    | some i => .command i
    | none => .illegal (.unknownOpcode (opcField w))
  else .illegal .reservedBits

/-- The opcode table's question (its bits numbered from the word's least significant bit): the command that an
instruction of `nbits` bits, all bits above them 0, is. -/
def decodeTableWord (nbits w : Nat) : Option Instr :=
  match decode (BitVec.ofNat 32 (w % 2 ^ nbits)) with
  | .command i => some i
  | .illegal _ => none

/-- The command word of a command: `CMD = zext_32(OPC)` (R101), the opcodes as each command's own rule
gives its encoding (R164 to R351). -/
def encode : Instr → Word
  | .nop => 0x00000000
  | .fifoClear => 0x00000001
  | .extract => 0x00000008
  | .extractBuf => 0x00000009
  | .adtsSync => 0x00000010
  | .adtsDecode => 0x00000011
  | .adtsScan => 0x00000012
  | .mp3Sync => 0x00000020
  | .mp3Decode => 0x00000021
  | .mp3Scan => 0x00000022
  | .id3Find => 0x00000023
  | .xingDetect => 0x00000024
  | .lameWindow => 0x00000025
  | .oggSync => 0x00000030
  | .oggDecode => 0x00000031
  | .oggScan => 0x00000032
  | .opusheadFind => 0x00000040
  | .opustagsTest => 0x00000041
  | .tocDecode => 0x00000042

/-- Column "buf" of R101: whether the command reads IBUF, which decides whether the RANGE check of
40_engine.md R154 applies to it. -/
def readsBuf : Instr → Bool
  | .nop => false
  | .fifoClear => false
  | .extract => false
  | .extractBuf => true
  | .adtsSync => true
  | .adtsDecode => true
  | .adtsScan => true
  | .mp3Sync => true
  | .mp3Decode => true
  | .mp3Scan => true
  | .id3Find => true
  | .xingDetect => true
  | .lameWindow => true
  | .oggSync => true
  | .oggDecode => true
  | .oggScan => true
  | .opusheadFind => true
  | .opustagsTest => true
  | .tocDecode => false

/-- Column "class" of R101: the commands that walk the buffer, one iteration an engine step. The others are
one-shots, which take one engine step (40_engine.md R155). -/
def isWalk : Instr → Bool
  | .adtsScan => true
  | .mp3Scan => true
  | .id3Find => true
  | .oggScan => true
  | .opusheadFind => true
  | .nop => false
  | .fifoClear => false
  | .extract => false
  | .extractBuf => false
  | .adtsSync => false
  | .adtsDecode => false
  | .mp3Sync => false
  | .mp3Decode => false
  | .xingDetect => false
  | .lameWindow => false
  | .oggSync => false
  | .oggDecode => false
  | .opustagsTest => false
  | .tocDecode => false

end Sys2Proof
end

