-- ==== Sys2Proof/Machine/State.lean ====
section
/-! DEFINITION. The FSHD's state as plain data: every register and hidden field of spec/10_state.md, the input
buffer (20_memory.md R71), the parameters (00_scope.md R7), and the two fields of the model's own that carry the
host: the moves still to come and the values its reads have returned. -/

namespace Sys2Proof.Machine

/-- Whether the engine runs a command (10_state.md R45); `STATUS.BUSY` is 1 exactly in `busy`. -/
inductive Phase
  | idle
  | busy
  deriving DecidableEq, Repr

/-- The result codes of `STATUS.CODE` (60_exceptions.md R401); 5 to 15 are never produced. -/
inductive Code
  | ok
  | notFound
  | truncated
  | illegal
  | range
  deriving DecidableEq, Repr

/-- One move of the total order of 20_memory.md R80: an engine step, a host access, or the reset input. -/
inductive Move
  /-- The engine takes a step, if it has one (40_engine.md R155). -/
  | engine
  /-- The reset input is asserted (70_reset_and_hazards.md R450). -/
  | reset
  /-- The host reads `bits` bits at a byte offset of the register window (10_state.md R21). -/
  | regRead (offset : BitVec 8) (bits : Nat)
  /-- The host writes `bits` bits at a byte offset of the register window (10_state.md R21). -/
  | regWrite (offset : BitVec 8) (bits : Nat) (value : Word)
  /-- `ibuf_read(a)` through the IBUF port (20_memory.md R71). -/
  | ibufRead (a : Nat)
  /-- `ibuf_write(a, v)` through the IBUF port (20_memory.md R71). -/
  | ibufWrite (a : Nat) (v : Byte)
  deriving DecidableEq, Repr

/-- What a host read returned. -/
inductive Reply
  /-- The word a register read returned. -/
  | word (w : Word)
  /-- The byte an IBUF port read returned. -/
  | byte (b : Byte)
  deriving DecidableEq, Repr

/-- Why the machine stops with a fault. -/
inductive Fault
  /-- 93_implementation_defined.md U1, 20_memory.md R71: a read of the IBUF byte at `a`, which the host has not
  written since power-up and which holds no value. Raised by the engine's steps and by the host's port read.
  Safe: the spec asks for this fault, and no value is invented. -/
  | unwrittenByte (a : Nat)
  deriving DecidableEq, Repr

/-- Why a move has no meaning in the model. -/
inductive Refusal
  /-- Raised only by `exec`'s arm for an instruction that has no meaning yet. Safe: nothing is proved of it. -/
  | notModelled (mnemonic : String)
  /-- 10_state.md R21, 93_implementation_defined.md U3: a register access that is not one aligned 32-bit word.
  Raised by the host's register moves. Safe: the spec has the model refuse it. -/
  | notAnAlignedWord (offset : BitVec 8) (bits : Nat)
  /-- 20_memory.md R71: an IBUF port access at or above `IBUF_CAP`. Raised by the host's port moves.
  Safe: the spec has the model refuse it. -/
  | outsideIbuf (a : Nat)
  /-- 20_memory.md R81, 93_implementation_defined.md U2: a host write of IBUF below `L` while BUSY. Raised by the
  host's port write. Safe: the spec has the model refuse it (a host that breaks the duty is outside every proof). -/
  | ibufWriteWhileBusy (a : Nat)
  /-- The engine is BUSY and `op` is no opcode, which acceptance never makes it (40_engine.md R151). Raised by the
  engine's turn in states that no run reaches. Safe: such a state stops. -/
  | strayOpcode (opc : Byte)
  deriving DecidableEq, Repr

/-- The result registers RES0 to RES7 (10_state.md R29). -/
structure Results where
  r0 : Word
  r1 : Word
  r2 : Word
  r3 : Word
  r4 : Word
  r5 : Word
  r6 : Word
  r7 : Word
  deriving DecidableEq, Repr

/-- All eight result registers 0 (40_engine.md R151, 70_reset_and_hazards.md R450). -/
def Results.zero : Results := ⟨0, 0, 0, 0, 0, 0, 0, 0⟩

/-- IBUF's written bytes, by address, addresses strictly rising. An address that is not listed has not been
written since power-up and holds no value (20_memory.md R71). -/
abbrev Memory := List Host.Cell

/-- The whole state of the block, and the host's moves and replies. -/
structure State where
  /-- The implementation's parameters (00_scope.md R7); no move changes them. -/
  params : Params
  /-- CTRL.IE (10_state.md R22). CTRL.SRST reads 0 and holds nothing. -/
  ie : Bool
  /-- `phase`, STATUS.BUSY (10_state.md R45, R23). -/
  phase : Phase
  /-- STATUS.DONE (10_state.md R23). -/
  done : Bool
  /-- STATUS.REJECT (10_state.md R23). -/
  reject : Bool
  /-- STATUS.UNDERFLOW (10_state.md R23). -/
  underflow : Bool
  /-- STATUS.CODE (10_state.md R23). -/
  code : Code
  /-- CMD (10_state.md R25). -/
  cmd : Word
  /-- BUF_LEN (10_state.md R26). -/
  bufLen : Word
  /-- ARG0 (10_state.md R27). -/
  arg0 : Word
  /-- ARG1 (10_state.md R28). -/
  arg1 : Word
  /-- OFF, the scan offset and program counter analogue (10_state.md R24). -/
  off : Word
  /-- STEPS (10_state.md R30). -/
  steps : Word
  /-- REC_COUNT (10_state.md R31). -/
  recCount : Word
  /-- TRUNC_COUNT (10_state.md R32). -/
  truncCount : Word
  /-- INVALID_COUNT (10_state.md R33). -/
  invalidCount : Word
  /-- INCOMPLETE_COUNT (10_state.md R34). -/
  incompleteCount : Word
  /-- OGG_SEQ.MONO_OK (10_state.md R35). -/
  monoOk : Bool
  /-- OGG_SEQ.MISSING_VALID (10_state.md R35). -/
  missingValid : Bool
  /-- OGG_SEQ.HAVE_PAGE (10_state.md R35). -/
  havePage : Bool
  /-- OGG_MISSING (10_state.md R36). -/
  oggMissing : Word
  /-- RES0 to RES7 (10_state.md R29). -/
  res : Results
  /-- The output FIFO, oldest word first (10_state.md R46); OUT_LEVEL is its length (R37). -/
  fifo : List Word
  /-- `op`, the opcode of the running command (10_state.md R45). -/
  op : Byte
  /-- `have_prev` (10_state.md R45). -/
  havePrev : Bool
  /-- `prev_end` (10_state.md R45). -/
  prevEnd : Word
  /-- `prev_pn` (10_state.md R45). -/
  prevPn : Word
  /-- IBUF (20_memory.md R71). -/
  ibuf : Memory
  /-- The model's own: the moves still to come in the total order of 20_memory.md R80, next first. When none is
  left, only the engine moves. DESIGN CHOICE, log entry 2. -/
  script : List Move
  /-- The model's own: what the host's reads have returned, oldest first. DESIGN CHOICE, log entry 3. -/
  replies : List Reply
  deriving DecidableEq, Repr

/-- The machine right after power-up reset: every register of 70_reset_and_hazards.md R450 at its value there, no
IBUF byte written (R452), no host move pending and no reply given. -/
def State.reset : State where
  params := Config.params
  ie := false
  phase := .idle
  done := false
  reject := false
  underflow := false
  code := .ok
  cmd := 0
  bufLen := 0
  arg0 := 0
  arg1 := 0
  off := 0
  steps := 0
  recCount := 0
  truncCount := 0
  invalidCount := 0
  incompleteCount := 0
  monoOk := false
  missingValid := false
  havePage := false
  oggMissing := 0
  res := .zero
  fifo := []
  op := 0
  havePrev := false
  prevEnd := 0
  prevPn := 0
  ibuf := []
  script := []
  replies := []

end Sys2Proof.Machine
end

