-- ==== Sys2Proof/Machine/Memory.lean ====
section
/-! DEFINITION. The input buffer's operations (20_memory.md R71, R72; 00_scope.md R11): one byte read and written,
a span read, and the two byte orders of R73. The engine only reads. -/

namespace Sys2Proof.Machine

/-- The byte at an address, or `none` where the host has written none since power-up. -/
def byteAt : Memory → Nat → Option Byte
  | [], _ => none
  | (a, b) :: rest, x => if a = x then some b else byteAt rest x

/-- `ibuf_write`: set one byte, addresses kept strictly rising. -/
def setByte : Memory → Nat → Byte → Memory
  | [], x, v => [(x, v)]
  | (a, b) :: rest, x, v =>
    if x < a then (x, v) :: (a, b) :: rest
    else if x = a then (x, v) :: rest
    else (a, b) :: setByte rest x v

/-- The canonical form: addresses strictly rising. Every listed byte differs from what an unlisted address
reads as, since that is no value at all. -/
def Memory.wf : Memory → Bool
  | [] => true
  | [_] => true
  | c :: d :: rest => decide (c.1 < d.1) && Memory.wf (d :: rest)

/-- Every written byte lies inside IBUF (20_memory.md R70). -/
def Memory.below (m : Memory) (cap : Nat) : Bool := m.all fun c => decide (c.1 < cap)

/-- `IBUF[a]`: a byte the host has not written is the fault of 93_implementation_defined.md U1. -/
def readByte (m : Memory) (a : Nat) : Except Fault Byte :=
  match byteAt m a with
  | some b => .ok b
  | none => .error (.unwrittenByte a)

/-- `MemRead(a, n)` (00_scope.md R11): the `n` bytes from `a` on; the first unwritten one faults. -/
def memRead (m : Memory) (a : Nat) : Nat → Except Fault (List Byte)
  | 0 => .ok []
  | n + 1 =>
    match readByte m a with
    | .error f => .error f
    | .ok b =>
      match memRead m (a + 1) n with
      | .error f => .error f
      | .ok bs => .ok (b :: bs)

/-- Big-endian assembly of a span, the first byte most significant (`BE`, 00_scope.md R11). -/
def be : List Byte → Nat
  | [] => 0
  | b :: rest => b.toNat * 256 ^ rest.length + be rest

/-- Little-endian assembly of a span, the first byte least significant (`LE`, 00_scope.md R11). -/
def le : List Byte → Nat
  | [] => 0
  | b :: rest => b.toNat + 256 * le rest

/-- The bytes `first .. first + n - 1` of a span already read. -/
def slice (bs : List Byte) (first n : Nat) : List Byte := (bs.drop first).take n

end Sys2Proof.Machine
end

