-- ==== Sys2Proof/Machine/Operands.lean ====
section
/-! DEFINITION. The operands of a command (30_encoding.md R103, R104), the extraction law (41_bitfield.md R200),
and the conversions between exact integers and words (00_scope.md R10, R11). -/

namespace Sys2Proof.Machine

/-- `extract(v, w, s) = (v >> s) mod 2^w` (41_bitfield.md R200). Total: widths and shifts out of range truncate
(R204). -/
def extract (v w s : Nat) : Nat := (v >>> s) % 2 ^ w

/-- An integer as it is stored in a 32-bit register; no rule stores one that does not fit (10_state.md R47). -/
def word (n : Nat) : Word := BitVec.ofNat 32 n

/-- `tc32`, the 32-bit two's-complement encoding of an integer (00_scope.md R11). -/
def tc32 (i : Int) : Word := BitVec.ofInt 32 i

/-- One bit as a record field. -/
def bit (b : Bool) : BitVec 1 := BitVec.ofBool b

/-- `L`, the length of the valid part of the buffer (10_state.md R26). -/
def bufferLength (s : State) : Nat := s.bufLen.toNat

/-- ARG0 read as an unsigned number: a start offset, a byte offset or a value (30_encoding.md R103). -/
def arg0Value (s : State) : Nat := s.arg0.toNat

/-- ARG0[7:0], the TOC byte of TOC_DECODE; bits 31:8 are ignored (R103). -/
def arg0Byte (s : State) : Byte := s.arg0.extractLsb' 0 8

/-- ARG1.W, bits 5:0 (R104). -/
def arg1W (s : State) : Nat := (s.arg1.extractLsb' 0 6).toNat

/-- ARG1.S, bits 13:8 (R104). -/
def arg1S (s : State) : Nat := (s.arg1.extractLsb' 8 6).toNat

/-- `n = ARG1.NB + 1`, NB in bits 17:16 (R104). -/
def arg1N (s : State) : Nat := (s.arg1.extractLsb' 16 2).toNat + 1

/-- A field of a header already read, `extract(BE(off + first, n), w, s)` (41_bitfield.md R203). -/
def field (bs : List Byte) (first n w s : Nat) : BitVec w :=
  BitVec.ofNat w (extract (be (slice bs first n)) w s)

/-- A field of a single byte, `extract(b, w, s)` (R203). -/
def byteField (b : Byte) (w s : Nat) : BitVec w := BitVec.ofNat w (extract b.toNat w s)

/-- A little-endian field of a header already read, as a word of `8 * n` bits (20_memory.md R73). -/
def leField (bs : List Byte) (first n : Nat) : BitVec (8 * n) := BitVec.ofNat (8 * n) (le (slice bs first n))

end Sys2Proof.Machine
end

