-- ==== Sys2Proof/Machine/Ops.lean ====
section
/-! DEFINITION. The operations every command shares: how an engine step ends (40_engine.md R155, R156, R160),
pushing records (R160), counting (R162), chaining (R161), the outcomes of a scan or search iteration (R157, R159),
and the reset event (70_reset_and_hazards.md R450). The FSHD has no exception to take: `finish` is its only change
of control (60_exceptions.md R400, R408), and nothing is restored on acknowledgement (R409). -/

namespace Sys2Proof.Machine

/-- How an engine step ends. -/
inductive StepResult
  /-- The step takes effect. -/
  | done (s : State)
  /-- The step is held for FIFO space: it has no effect at all (40_engine.md R160). -/
  | held
  /-- The step reads an IBUF byte that holds no value (93_implementation_defined.md U1). -/
  | fault (f : Fault)
  deriving DecidableEq, Repr

/-- The outcome of an engine step taken in state `s`: a held step leaves `s` as it is (R160). -/
def commit (s : State) : StepResult → Host.Outcome State Fault Refusal
  | .done t => .next t
  | .held => .next s
  | .fault f => .fault f

/-- Go on with the bytes of a `MemRead`, or end the step in its fault. -/
def withBytes (s : State) (a n : Nat) (k : List Byte → StepResult) : StepResult :=
  match memRead s.ibuf a n with
  | .ok bs => k bs
  | .error f => .fault f

/-- Go on with one byte of IBUF, or end the step in its fault. -/
def withByte (s : State) (a : Nat) (k : Byte → StepResult) : StepResult :=
  match readByte s.ibuf a with
  | .ok b => k b
  | .error f => .fault f

/-- `finish(code)`: phase IDLE, DONE 1, CODE the code (40_engine.md R156). -/
def finish (c : Code) (s : State) : State := { s with phase := .idle, done := true, code := c }

/-- The words of a record appended to the FIFO in order (40_engine.md R160). -/
def appendWords (record : List Word) (s : State) : State := { s with fifo := s.fifo ++ record }

/-- The result registers written (10_state.md R29). -/
def setRes (r : Results) (s : State) : State := { s with res := r }

/-- `Push(r)`: the whole record is appended if the FIFO has room for it, and otherwise the step is held
(40_engine.md R160). -/
def push (s : State) (record : List Word) (k : State → StepResult) : StepResult :=
  if s.fifo.length + record.length ≤ s.params.outDepth then k (appendWords record s) else .held

/-- `Count(h)` for a pushed record (40_engine.md R162). -/
def countRecord (incomplete invalid : Bool) (s : State) : State :=
  { s with
    recCount := s.recCount + 1
    incompleteCount := if incomplete then s.incompleteCount + 1 else s.incompleteCount
    invalidCount := if invalid then s.invalidCount + 1 else s.invalidCount }

/-- `incomplete(h) = have_prev and (h.offset != prev_end)` (40_engine.md R161). -/
def incomplete (s : State) (offset : Nat) : Bool := s.havePrev && offset != s.prevEnd.toNat

/-- `Chain(h)`: have_prev 1, prev_end the header's offset plus its own size (40_engine.md R161). -/
def chain (offset size : Nat) (s : State) : State := { s with havePrev := true, prevEnd := word (offset + size) }

/-- `x[STEPS] <- x[STEPS] + 1` (40_engine.md R163). -/
def countStep (s : State) : State := { s with steps := s.steps + 1 }

/-- `OFF <- v` (10_state.md R24). -/
def setOff (v : Nat) (s : State) : State := { s with off := word v }

/-- An iteration that finds nothing at its offset: OFF one on (40_engine.md R157, R159). -/
def noCandidate (s : State) : State := setOff (s.off.toNat + 1) (countStep s)

/-- A candidate with too few bytes left: TRUNC_COUNT and OFF one on (40_engine.md R157, R159). -/
def truncatedCandidate (s : State) : State :=
  { noCandidate s with truncCount := s.truncCount + 1 }

/-- An MP3 candidate whose frame size is not positive: INVALID_COUNT and OFF one on (40_engine.md R157). -/
def invalidCandidate (s : State) : State :=
  { noCandidate s with invalidCount := s.invalidCount + 1 }

/-- A scan iteration that pushes a header found at OFF: `record` builds its words from the INCOMPLETE bit, `size`
is the header's own length and `advance` what OFF moves by (40_engine.md R157). -/
def pushHeader (s : State) (record : Bool → List Word) (invalid : Bool) (size advance : Nat)
    (after : State → State) : StepResult :=
  push (countStep s) (record (incomplete s s.off.toNat)) fun t =>
    .done (setOff (s.off.toNat + advance) (after (chain s.off.toNat size
      (countRecord (incomplete s s.off.toNat) invalid t))))

/-- A one-shot decode's record: pushed with INCOMPLETE 0 and counted, not chained; the command ends with `c`
(40_engine.md R161, R162). -/
def pushOne (s : State) (record : List Word) (invalid : Bool) (c : Code) : StepResult :=
  push s record fun t => .done (finish c (countRecord false invalid t))

/-- `ScanCode()`: OK if a record was pushed, else NOT_FOUND (40_engine.md R158). -/
def scanCode (s : State) : Code := if s.recCount = 0 then .notFound else .ok

/-- A record's word 0: INCOMPLETE, FLAGS, LEN, TYPE (30_encoding.md R110). -/
def recordHeader (type : BitVec 8) (len : Nat) (flags : BitVec 15) (incomplete : Bool) : Word :=
  bit incomplete ++ flags ++ BitVec.ofNat 8 len ++ type

/-- `pack_le`: bytes four to a word, the first lowest, missing ones 0 (20_memory.md R74). -/
def packLe : List Byte → List Word
  | [] => []
  | [a] => [0#24 ++ a]
  | [a, b] => [0#16 ++ b ++ a]
  | [a, b, c] => [0#8 ++ c ++ b ++ a]
  | a :: b :: c :: d :: rest => (d ++ c ++ b ++ a) :: packLe rest

/-- The reset event: every register and hidden field at its reset value; IBUF keeps its bytes
(70_reset_and_hazards.md R450, R452). The host's own moves and replies are no state of the block. -/
def resetBlock (s : State) : State :=
  { State.reset with params := s.params, ibuf := s.ibuf, script := s.script, replies := s.replies }

end Sys2Proof.Machine
end

