-- ==== Sys2Proof/Machine/Flags.lean ====
section
/-! DEFINITION. The status bits software sees (10_state.md R22, R23, R35, R39), and the per-record invalid flags
and page-sequence flags that commands compute (40_engine.md R162, 44_ogg.md R319). -/

namespace Sys2Proof.Machine

/-- The CODE field's value (60_exceptions.md R401). -/
def codeBits : Code → BitVec 4
  | .ok => 0
  | .notFound => 1
  | .truncated => 2
  | .illegal => 3
  | .range => 4

/-- STATUS.BUSY, which is 1 exactly when phase is BUSY (10_state.md R45). -/
def busyBit (s : State) : Bool := decide (s.phase = .busy)

/-- STATUS.OUT_NE: the FIFO holds a word (10_state.md R23). -/
def outNeBit (s : State) : Bool := decide (0 < s.fifo.length)

/-- The IRQ output, `CTRL.IE & STATUS.DONE` (10_state.md R39). -/
def State.irq (s : State) : Bool := s.ie && s.done

/-- CTRL as it is read: IE in bit 0, SRST and the reserved bits 0 (10_state.md R22). -/
def ctrlWord (s : State) : Word := 0#31 ++ bit s.ie

/-- STATUS as it is read, given its derived STALL bit (10_state.md R23). -/
def statusWord (s : State) (stall : Bool) : Word :=
  0#22 ++ bit (outNeBit s) ++ bit stall ++ codeBits s.code ++ bit s.underflow ++ bit s.reject ++ bit s.done
    ++ bit (busyBit s)

/-- A STATUS write: each W1C bit written as 1 is cleared, nothing else changes (10_state.md R23). -/
def clearStatus (v : Word) (s : State) : State :=
  { s with
    done := s.done && !v.getLsbD 1
    reject := s.reject && !v.getLsbD 2
    underflow := s.underflow && !v.getLsbD 3 }

/-- OGG_SEQ as it is read (10_state.md R35). -/
def oggSeqWord (s : State) : Word := 0#29 ++ bit s.havePage ++ bit s.missingValid ++ bit s.monoOk

/-- OGG_MISSING as it is read: 0 while MISSING_VALID is 0 (10_state.md R36). -/
def oggMissingWord (s : State) : Word := if s.missingValid then s.oggMissing else 0

/-- `SeqCheck(p)`: the page-sequence check of OGG_SCAN (44_ogg.md R319). -/
def seqCheck (pageNum : Word) (s : State) : State :=
  { s with
    monoOk := s.monoOk && !(s.havePage && pageNum.ule s.prevPn)
    missingValid := s.missingValid || (s.havePage && pageNum != s.prevPn + 1)
    oggMissing := bif s.havePage && !s.missingValid && pageNum != s.prevPn + 1 then s.prevPn + 1 else s.oggMissing
    havePage := true
    prevPn := pageNum }

end Sys2Proof.Machine
end

