-- ==== Sys2Proof/Machine/Tables.lean ====
section
/-! DEFINITION. The read-only lookup tables and magic constants of 10_state.md R40 to R44, the enumerations of
00_scope.md R16, and the fixed parameter of R7. Entries the source document does not confirm are the numbered
rules' own (93_implementation_defined.md K1 to K5); the model follows the rules. -/

namespace Sys2Proof.Machine

/-- `ADTS_MIN_REMAIN` (00_scope.md R7). -/
def adtsMinRemain : Nat := 19

/-- The MPEG versions, named as in 00_scope.md R16. -/
inductive MpegVersion
  | v1
  | v2
  | v2_5
  | invalid
  deriving DecidableEq, Repr

/-- V1=0, V2=1, V2_5=2, Invalid=3 (R16). -/
def MpegVersion.code : MpegVersion → BitVec 2
  | .v1 => 0
  | .v2 => 1
  | .v2_5 => 2
  | .invalid => 3

/-- The MPEG layers, named as in 00_scope.md R16. -/
inductive MpegLayer
  | l1
  | l2
  | l3
  | invalid
  deriving DecidableEq, Repr

/-- L1=0, L2=1, L3=2, Invalid=3 (R16). -/
def MpegLayer.code : MpegLayer → BitVec 2
  | .l1 => 0
  | .l2 => 1
  | .l3 => 2
  | .invalid => 3

/-- The Opus modes (R16). -/
inductive OpusMode
  | silk
  | hybrid
  | celt
  deriving DecidableEq, Repr

/-- SILK=0, HYBRID=1, CELT=2 (R16). -/
def OpusMode.code : OpusMode → BitVec 2
  | .silk => 0
  | .hybrid => 1
  | .celt => 2

/-- The Opus bandwidths (R16). -/
inductive OpusBandwidth
  | nb
  | mb
  | wb
  | swb
  | fb
  deriving DecidableEq, Repr

/-- NB=0, MB=1, WB=2, SWB=3, FB=4 (R16). -/
def OpusBandwidth.code : OpusBandwidth → BitVec 3
  | .nb => 0
  | .mb => 1
  | .wb => 2
  | .swb => 3
  | .fb => 4

/-- `ADTS_SR`, the ADTS sampling frequencies in Hz; 13 and 14 are reserved (0), 15 is forbidden (-1) (R40). -/
def adtsSampleRates : List Int :=
  [96000, 88200, 64000, 48000, 44100, 32000, 24000, 22050,
   16000, 12000, 11025, 8000, 7350, 0, 0, -1]

/-- `ADTS_SR[i]` (R40). -/
def adtsSampleRate (i : BitVec 4) : Int := adtsSampleRates.getD i.toNat (-1)

/-- `BR_V1L1`, bitrate indices 1 to 14 in kbit/s (R41). -/
def brV1L1 : List Nat := [32, 64, 96, 128, 160, 192, 224, 256, 288, 320, 352, 384, 416, 448]

/-- `BR_V1L2` (R41). -/
def brV1L2 : List Nat := [32, 48, 56, 64, 80, 96, 112, 128, 160, 192, 224, 256, 320, 384]

/-- `BR_V1L3` (R41). -/
def brV1L3 : List Nat := [32, 40, 48, 56, 64, 80, 96, 112, 128, 160, 192, 224, 256, 320]

/-- `BR_V2L1` (R41). -/
def brV2L1 : List Nat := [32, 48, 56, 64, 80, 96, 112, 128, 144, 160, 176, 192, 224, 256]

/-- `BR_V2L23` (R41). -/
def brV2L23 : List Nat := [8, 16, 24, 32, 40, 48, 56, 64, 80, 96, 112, 128, 144, 160]

/-- Which bitrate table a version and layer use (R41); none where one of them is Invalid. -/
def bitrateTable : MpegVersion → MpegLayer → Option (List Nat)
  | .invalid, _ => none
  | _, .invalid => none
  | .v1, .l1 => some brV1L1
  | .v1, .l2 => some brV1L2
  | .v1, .l3 => some brV1L3
  | .v2, .l1 => some brV2L1
  | .v2_5, .l1 => some brV2L1
  | .v2, .l2 => some brV2L23
  | .v2, .l3 => some brV2L23
  | .v2_5, .l2 => some brV2L23
  | .v2_5, .l3 => some brV2L23

/-- The sample-rate tables in Hz, indices 0 to 3 (R42); a version Invalid gives -1 for every index. -/
def mpegSampleRates : MpegVersion → List Int
  | .v1 => [44100, 48000, 32000, -1]
  | .v2 => [22050, 24000, 16000, -1]
  | .v2_5 => [11025, 12000, 8000, -1]
  | .invalid => [-1, -1, -1, -1]

/-- `SR(version)[r]` (R42). -/
def mpegSampleRate (v : MpegVersion) (r : BitVec 2) : Int := (mpegSampleRates v).getD r.toNat (-1)

/-- ADTS sync mask (R44). -/
def adtsSyncMask : Nat := 0xFFF6

/-- ADTS sync compare value (R44). -/
def adtsSyncValue : Nat := 0xFFF0

/-- MPEG-audio sync mask and compare value (R44). -/
def mpegSyncMask : Nat := 0xFFE0

/-- `ascii("ID3")` (R44). -/
def id3Magic : List Byte := [0x49, 0x44, 0x33]

/-- `ascii("Xing")` (R44). -/
def xingTag : List Byte := [0x58, 0x69, 0x6E, 0x67]

/-- `ascii("Info")` (R44). -/
def infoTag : List Byte := [0x49, 0x6E, 0x66, 0x6F]

/-- `ascii("OggS")` and a zero byte (R44). -/
def oggMagic : List Byte := [0x4F, 0x67, 0x67, 0x53, 0x00]

/-- `ascii("OpusHead")` (R44). -/
def opusHeadMagic : List Byte := [0x4F, 0x70, 0x75, 0x73, 0x48, 0x65, 0x61, 0x64]

/-- `ascii("OpusTags")` (R44). -/
def opusTagsMagic : List Byte := [0x4F, 0x70, 0x75, 0x73, 0x54, 0x61, 0x67, 0x73]

end Sys2Proof.Machine
end

