-- ==== Sys2Proof/Machine/Adts.lean ====
section
/-! DEFINITION. The ADTS frame synchronizer and decoder: ADTS_SYNC, ADTS_DECODE, ADTS_SCAN
(spec/42_adts.md; record layout 30_encoding.md R111). -/

namespace Sys2Proof.Machine

/-- `AdtsSync(off)` on the two bytes at `off` (42_adts.md R220). -/
def adtsSyncMatch (bs : List Byte) : Bool := be bs &&& adtsSyncMask == adtsSyncValue

/-- The ADTS header's decoded fields (42_adts.md R221). -/
structure AdtsHeader where
  version : BitVec 1
  layer : BitVec 2
  protectionAbsent : BitVec 1
  profileIndex : BitVec 2
  samplingFrequencyIndex : BitVec 4
  privateBit : BitVec 1
  channelConfigIndex : BitVec 3
  originality : BitVec 1
  home : BitVec 1
  copyrightIdBit : BitVec 1
  copyrightIdStart : BitVec 1
  frameSize : BitVec 13
  bufferFullness : BitVec 11
  rdbCount : BitVec 2
  /-- Bytes 7 and 8; a CRC only where protectionAbsent is 0 (R223). -/
  crcField : BitVec 16
  deriving DecidableEq, Repr

/-- `AdtsDecode` of the bytes `off .. off+8`: first byte, byte count, width and shift of each field as in R221. -/
def adtsDecode (bs : List Byte) : AdtsHeader where
  version := field bs 1 1 1 3
  layer := field bs 1 1 2 1
  protectionAbsent := field bs 1 1 1 0
  profileIndex := field bs 2 1 2 6
  samplingFrequencyIndex := field bs 2 1 4 2
  privateBit := field bs 2 1 1 1
  channelConfigIndex := field bs 2 2 3 6
  originality := field bs 3 1 1 5
  home := field bs 3 1 1 4
  copyrightIdBit := field bs 3 1 1 3
  copyrightIdStart := field bs 3 1 1 2
  frameSize := field bs 3 3 13 5
  bufferFullness := field bs 5 2 11 2
  rdbCount := field bs 6 1 2 0
  crcField := field bs 7 2 16 0

/-- `AdtsDecodable(off)`: 19 bytes remain (42_adts.md R222). -/
def adtsDecodable (s : State) (off : Nat) : Bool := decide (off + adtsMinRemain ≤ bufferLength s)

/-- `crcPresent` (R223). -/
def adtsCrcPresent (h : AdtsHeader) : Bool := h.protectionAbsent == 0

/-- `headerSize`: 7 without CRC, 9 with (R223). -/
def adtsHeaderSize (h : AdtsHeader) : Nat := if h.protectionAbsent = 1 then 7 else 9

/-- `aacFrameCount`, 1 to 4 (R223). -/
def adtsFrameCount (h : AdtsHeader) : Nat := h.rdbCount.toNat + 1

/-- SR_INVALID (R224). -/
def adtsSrInvalid (h : AdtsHeader) : Bool := decide (13 ≤ h.samplingFrequencyIndex.toNat)

/-- SIZE_INVALID (R224). -/
def adtsSizeInvalid (h : AdtsHeader) : Bool := decide (h.frameSize.toNat < adtsHeaderSize h)

/-- LAYER_INVALID (R224). -/
def adtsLayerInvalid (h : AdtsHeader) : Bool := h.layer != 0

/-- Whether the record counts in INVALID_COUNT (40_engine.md R162). -/
def adtsInvalid (h : AdtsHeader) : Bool := adtsSrInvalid h || adtsSizeInvalid h || adtsLayerInvalid h

/-- The ADTS record's six words (30_encoding.md R111). -/
def adtsRecord (off : Nat) (h : AdtsHeader) (incomplete : Bool) : List Word :=
  [recordHeader 0x01 6
     (0#11 ++ bit (adtsLayerInvalid h) ++ bit (adtsSizeInvalid h) ++ bit (adtsSrInvalid h)
       ++ bit (adtsCrcPresent h)) incomplete,
   word off,
   0#4 ++ BitVec.ofNat 4 (adtsHeaderSize h) ++ 0#1 ++ BitVec.ofNat 3 (adtsFrameCount h) ++ h.rdbCount
     ++ h.copyrightIdStart ++ h.copyrightIdBit ++ h.home ++ h.originality ++ h.channelConfigIndex
     ++ h.privateBit ++ h.samplingFrequencyIndex ++ h.profileIndex ++ h.protectionAbsent ++ h.layer ++ h.version,
   0#5 ++ h.bufferFullness ++ 0#3 ++ h.frameSize,
   0#16 ++ (if adtsCrcPresent h then h.crcField else 0#16),
   tc32 (adtsSampleRate h.samplingFrequencyIndex)]

/-- `AdtsAdvance(h)`: the frame size, and 1 where that is 0 (42_adts.md R228). -/
def adtsAdvance (h : AdtsHeader) : Nat := if h.frameSize.toNat = 0 then 1 else h.frameSize.toNat

/-- ADTS_SYNC's engine step (R225). -/
def adtsSyncBody (s : State) : StepResult :=
  if bufferLength s < arg0Value s + 2 then .done (finish .truncated (setRes { s.res with r0 := 0 } s))
  else
    withBytes s (arg0Value s) 2 fun bs =>
      .done (finish .ok (setRes { s.res with r0 := if adtsSyncMatch bs then 1 else 0 } s))

/-- ADTS_SYNC (42_adts.md R225). -/
def execAdtsSync (s : State) : Host.Outcome State Fault Refusal := commit s (adtsSyncBody s)

/-- ADTS_DECODE's engine step: no sync test (R226). -/
def adtsDecodeBody (s : State) : StepResult :=
  if adtsDecodable s (arg0Value s) then
    withBytes s (arg0Value s) 9 fun bs =>
      pushOne s (adtsRecord (arg0Value s) (adtsDecode bs) false) (adtsInvalid (adtsDecode bs)) .ok
  else .done (finish .truncated s)

/-- ADTS_DECODE (42_adts.md R226). -/
def execAdtsDecode (s : State) : Host.Outcome State Fault Refusal := commit s (adtsDecodeBody s)

/-- ADTS_SCAN's iteration at OFF (R227). -/
def adtsScanIteration (s : State) : StepResult :=
  withBytes s s.off.toNat 2 fun sync =>
    if adtsSyncMatch sync then
      if adtsDecodable s s.off.toNat then
        withBytes s s.off.toNat 9 fun bs =>
          pushHeader s (adtsRecord s.off.toNat (adtsDecode bs)) (adtsInvalid (adtsDecode bs))
            (adtsDecode bs).frameSize.toNat (adtsAdvance (adtsDecode bs)) id
      else .done (truncatedCandidate s)
    else .done (noCandidate s)

/-- ADTS_SCAN's engine step: an iteration while `OFF + 7 < L`, else the end (R227). -/
def adtsScanBody (s : State) : StepResult :=
  if s.off.toNat + 7 < bufferLength s then adtsScanIteration s else .done (finish (scanCode s) s)

/-- ADTS_SCAN (42_adts.md R227). -/
def execAdtsScan (s : State) : Host.Outcome State Fault Refusal := commit s (adtsScanBody s)

end Sys2Proof.Machine
end

