-- ==== Sys2Proof/Machine/BitField.lean ====
section
/-! DEFINITION. The bit-field extractor's commands EXTRACT and EXTRACT_BUF (41_bitfield.md R201, R202). -/

namespace Sys2Proof.Machine

/-- EXTRACT's engine step: `RES0 <- extract(v, w, s)` (R201). -/
def extractBody (s : State) : StepResult :=
  .done (finish .ok (setRes { s.res with r0 := word (extract (arg0Value s) (arg1W s) (arg1S s)) } s))

/-- EXTRACT (41_bitfield.md R201). -/
def execExtract (s : State) : Host.Outcome State Fault Refusal := commit s (extractBody s)

/-- EXTRACT_BUF's engine step: the assembled span in RES1, the field in RES0; TRUNCATED with both 0 when the
span passes `L` (R202). -/
def extractBufBody (s : State) : StepResult :=
  if bufferLength s < arg0Value s + arg1N s then
    .done (finish .truncated (setRes { s.res with r0 := 0, r1 := 0 } s))
  else
    withBytes s (arg0Value s) (arg1N s) fun bs =>
      .done (finish .ok
        (setRes { s.res with r0 := word (extract (be bs) (arg1W s) (arg1S s)), r1 := word (be bs) } s))

/-- EXTRACT_BUF (41_bitfield.md R202). -/
def execExtractBuf (s : State) : Host.Outcome State Fault Refusal := commit s (extractBufBody s)

end Sys2Proof.Machine
end

