-- ==== Sys2Proof/Machine/Control.lean ====
section
/-! DEFINITION. The control commands NOP and FIFO_CLEAR (40_engine.md R164, R165). -/

namespace Sys2Proof.Machine

/-- NOP's engine step: `finish(OK)` (R164). -/
def nopBody (s : State) : StepResult := .done (finish .ok s)

/-- NOP (40_engine.md R164). -/
def execNop (s : State) : Host.Outcome State Fault Refusal := commit s (nopBody s)

/-- FIFO_CLEAR's engine step: the FIFO is emptied, then `finish(OK)`; UNDERFLOW stays (R165). -/
def fifoClearBody (s : State) : StepResult := .done (finish .ok { s with fifo := [] })

/-- FIFO_CLEAR (40_engine.md R165). -/
def execFifoClear (s : State) : Host.Outcome State Fault Refusal := commit s (fifoClearBody s)

end Sys2Proof.Machine
end

