-- ==== Sys2Proof/Machine/Mp3.lean ====
section
/-! DEFINITION. MPEG-audio frames, ID3v2 tags, Xing/Info and LAME: MP3_SYNC, MP3_DECODE, MP3_SCAN, ID3_FIND,
XING_DETECT, LAME_WINDOW (spec/43_mp3.md; record layouts 30_encoding.md R112, R114). -/

namespace Sys2Proof.Machine

/-- `MpegSync(off)` on the two bytes at `off` (43_mp3.md R260). -/
def mpegSyncMatch (bs : List Byte) : Bool := be bs &&& mpegSyncMask == mpegSyncMask

/-- The version the version bits mean (43_mp3.md R262). -/
def mpegVersion (vb : BitVec 2) : MpegVersion :=
  if vb = 0 then .v2_5 else if vb = 1 then .invalid else if vb = 2 then .v2 else .v1

/-- The layer the layer bits mean (R262). -/
def mpegLayer (lb : BitVec 2) : MpegLayer :=
  if lb = 0 then .invalid else if lb = 1 then .l3 else if lb = 2 then .l2 else .l1

/-- The MPEG-audio header's decoded fields (43_mp3.md R261, R262). -/
structure MpegHeader where
  version : MpegVersion
  layer : MpegLayer
  protection : BitVec 1
  bitrateIndex : BitVec 4
  sampleRateIndex : BitVec 2
  padding : BitVec 1
  privateBit : BitVec 1
  deriving DecidableEq, Repr

/-- `MpegDecode` of the header bytes from `off` on, fields as in R261; byte 3 is not decoded. -/
def mpegDecode (bs : List Byte) : MpegHeader where
  version := mpegVersion (field bs 1 1 2 3)
  layer := mpegLayer (field bs 1 1 2 1)
  protection := field bs 1 1 1 0
  bitrateIndex := field bs 2 1 4 4
  sampleRateIndex := field bs 2 1 2 2
  padding := field bs 2 1 1 1
  privateBit := field bs 2 1 1 0

/-- Bitrate in bits/s: -1 for an invalid version, layer or index 15, 0 for free format (43_mp3.md R263). -/
def mpegBitrate (h : MpegHeader) : Int :=
  match bitrateTable h.version h.layer with
  | none => -1
  | some table =>
    if h.bitrateIndex = 0 then 0
    else if h.bitrateIndex = 15 then -1
    else 1000 * (table.getD (h.bitrateIndex.toNat - 1) 0 : Nat)

/-- Sample rate in Hz: -1 for an invalid version or index 3 (43_mp3.md R264). -/
def mpegRate (h : MpegHeader) : Int := mpegSampleRate h.version h.sampleRateIndex

/-- Frame size in bytes: `floor(144 * bitrate / (sampleRate + 8))` where both are positive, else 0
(43_mp3.md R265). -/
def mpegFrameSize (h : MpegHeader) : Nat :=
  if 0 < mpegBitrate h ∧ 0 < mpegRate h then (144 * mpegBitrate h / (mpegRate h + 8)).toNat else 0

/-- VERSION_INVALID (R266). -/
def mpegVersionInvalid (h : MpegHeader) : Bool := h.version == .invalid

/-- LAYER_INVALID (R266). -/
def mpegLayerInvalid (h : MpegHeader) : Bool := h.layer == .invalid

/-- BITRATE_INVALID (R266). -/
def mpegBitrateInvalid (h : MpegHeader) : Bool := mpegBitrate h == -1

/-- SR_INVALID (R266). -/
def mpegSrInvalid (h : MpegHeader) : Bool := mpegRate h == -1

/-- FREE_FORMAT, which is no invalid flag (R266, 30_encoding.md R112). -/
def mpegFreeFormat (h : MpegHeader) : Bool :=
  h.bitrateIndex == 0 && h.version != .invalid && h.layer != .invalid

/-- Whether the record counts in INVALID_COUNT (40_engine.md R162). -/
def mpegInvalid (h : MpegHeader) : Bool :=
  mpegVersionInvalid h || mpegLayerInvalid h || mpegBitrateInvalid h || mpegSrInvalid h

/-- The MPEG-audio record's six words (43_mp3.md R266, 30_encoding.md R112). -/
def mpegRecord (off : Nat) (h : MpegHeader) (incomplete : Bool) : List Word :=
  [recordHeader 0x02 6
     (0#10 ++ bit (mpegFreeFormat h) ++ bit (mpegSrInvalid h) ++ bit (mpegBitrateInvalid h)
       ++ bit (mpegLayerInvalid h) ++ bit (mpegVersionInvalid h)) incomplete,
   word off,
   0#19 ++ h.privateBit ++ h.padding ++ h.sampleRateIndex ++ h.bitrateIndex ++ h.protection ++ h.layer.code
     ++ h.version.code,
   tc32 (mpegBitrate h),
   tc32 (mpegRate h),
   word (mpegFrameSize h)]

/-- MP3_SYNC's engine step (R267). -/
def mp3SyncBody (s : State) : StepResult :=
  if bufferLength s < arg0Value s + 2 then .done (finish .truncated (setRes { s.res with r0 := 0 } s))
  else
    withBytes s (arg0Value s) 2 fun bs =>
      .done (finish .ok (setRes { s.res with r0 := if mpegSyncMatch bs then 1 else 0 } s))

/-- MP3_SYNC (43_mp3.md R267). -/
def execMp3Sync (s : State) : Host.Outcome State Fault Refusal := commit s (mp3SyncBody s)

/-- MP3_DECODE's engine step: no sync test; the fields stand in bytes 0 to 2 (R268, R261). -/
def mp3DecodeBody (s : State) : StepResult :=
  if bufferLength s < arg0Value s + 4 then .done (finish .truncated s)
  else
    withBytes s (arg0Value s) 3 fun bs =>
      pushOne s (mpegRecord (arg0Value s) (mpegDecode bs) false) (mpegInvalid (mpegDecode bs)) .ok

/-- MP3_DECODE (43_mp3.md R268). -/
def execMp3Decode (s : State) : Host.Outcome State Fault Refusal := commit s (mp3DecodeBody s)

/-- MP3_SCAN's iteration at OFF (R269). -/
def mp3ScanIteration (s : State) : StepResult :=
  withBytes s s.off.toNat 2 fun sync =>
    if mpegSyncMatch sync then
      withBytes s s.off.toNat 3 fun bs =>
        if 0 < mpegFrameSize (mpegDecode bs) then
          pushHeader s (mpegRecord s.off.toNat (mpegDecode bs)) (mpegInvalid (mpegDecode bs))
            (mpegFrameSize (mpegDecode bs)) (mpegFrameSize (mpegDecode bs)) id
        else .done (invalidCandidate s)
    else .done (noCandidate s)

/-- MP3_SCAN's engine step: an iteration while `OFF + 4 <= L`, else the end (R269). -/
def mp3ScanBody (s : State) : StepResult :=
  if s.off.toNat + 4 ≤ bufferLength s then mp3ScanIteration s else .done (finish (scanCode s) s)

/-- MP3_SCAN (43_mp3.md R269). -/
def execMp3Scan (s : State) : Host.Outcome State Fault Refusal := commit s (mp3ScanBody s)

/-- `Id3Match(off)` on the first five bytes and the four size bytes; the flags byte takes no part
(43_mp3.md R270). -/
def id3Match (front size : List Byte) : Bool :=
  slice front 0 3 == id3Magic && (slice front 3 2).all (fun b => decide (b.toNat < 0xFF))
    && size.all (fun b => decide (b.toNat < 0x80))

/-- `Unsync`: the low 7 bits of each size byte, most significant byte first (43_mp3.md R271). -/
def unsync (size : List Byte) : Nat := size.foldl (fun acc b => acc <<< 7 ||| (b.toNat &&& 0x7F)) 0

/-- The footer bit of the flags byte (43_mp3.md R272). -/
def id3Footer (flags : Byte) : Bool := flags &&& 0x10 != 0

/-- `TagSize`: the 10-byte header, the body, and a 10-byte footer where the flags byte says so (R272). -/
def id3TagSize (flags : Byte) (size : List Byte) : Nat := 10 + unsync size + if id3Footer flags then 10 else 0

/-- The result registers of a tag found at `off` (43_mp3.md R273). -/
def id3Results (off length : Nat) (front : List Byte) (flags : Byte) (size : List Byte) (r : Results) : Results :=
  { r with
    r0 := word off
    r1 := word (id3TagSize flags size)
    r2 := 0#6 ++ bit (decide (length < off + id3TagSize flags size)) ++ bit (id3Footer flags) ++ field front 4 1 8 0
      ++ field front 3 1 8 0 ++ flags
    r3 := word (unsync size) }

/-- ID3_FIND's iteration at OFF: a hit ends the search, anything else moves OFF one on (R273, 40_engine.md R159). -/
def id3Iteration (s : State) : StepResult :=
  withBytes s s.off.toNat 5 fun front =>
    withBytes s (s.off.toNat + 6) 4 fun size =>
      if id3Match front size then
        withByte s (s.off.toNat + 5) fun flags =>
          .done (finish .ok
            (setRes (id3Results s.off.toNat (bufferLength s) front flags size s.res) (countStep s)))
      else .done (noCandidate s)

/-- ID3_FIND's engine step: an iteration while `OFF + 10 <= L`, else the miss (R273). -/
def id3FindBody (s : State) : StepResult :=
  if s.off.toNat + 10 ≤ bufferLength s then id3Iteration s
  else .done (finish .notFound (setRes { s.res with r0 := 0xFFFFFFFF, r1 := 0xFFFFFFFF } s))

/-- ID3_FIND (43_mp3.md R273). -/
def execId3Find (s : State) : Host.Outcome State Fault Refusal := commit s (id3FindBody s)

/-- XING_DETECT's answer for the four bytes at the fixed offset: 1 Xing, 2 Info, 0 neither (43_mp3.md R274). -/
def xingKind (t : List Byte) : Word := if t = xingTag then 1 else if t = infoTag then 2 else 0

/-- XING_DETECT's engine step (R274). -/
def xingDetectBody (s : State) : StepResult :=
  if bufferLength s < arg0Value s + 40 then .done (finish .truncated (setRes { s.res with r0 := 0 } s))
  else
    withBytes s (arg0Value s + 36) 4 fun t => .done (finish .ok (setRes { s.res with r0 := xingKind t } s))

/-- XING_DETECT (43_mp3.md R274). -/
def execXingDetect (s : State) : Host.Outcome State Fault Refusal := commit s (xingDetectBody s)

/-- The LAME window record: no flags, INCOMPLETE 0, the window's offset, its bytes packed (30_encoding.md R114). -/
def lameRecord (a : Nat) (window : List Byte) : List Word :=
  [recordHeader 0x04 (2 + (window.length + 3) / 4) 0 false, word a] ++ packLe window

/-- `n`, how many bytes of the window `[f+39, f+177)` lie below `L` (43_mp3.md R275). -/
def lameCount (s : State) : Nat := min (arg0Value s + 177) (bufferLength s) - (arg0Value s + 39)

/-- The code LAME_WINDOW ends with (R275). -/
def lameCode (s : State) : Code := if bufferLength s < arg0Value s + 177 then .truncated else .ok

/-- RES0 the window's start, RES1 its byte count (R275). -/
def lameResults (s : State) : Results := { s.res with r0 := word (arg0Value s + 39), r1 := word (lameCount s) }

/-- LAME_WINDOW's engine step: the window clipped at `L`, pushed where it is not empty (R275). -/
def lameWindowBody (s : State) : StepResult :=
  if lameCount s = 0 then .done (finish (lameCode s) (setRes (lameResults s) s))
  else
    withBytes s (arg0Value s + 39) (lameCount s) fun window =>
      pushOne (setRes (lameResults s) s) (lameRecord (arg0Value s + 39) window) false (lameCode s)

/-- LAME_WINDOW (43_mp3.md R275). -/
def execLameWindow (s : State) : Host.Outcome State Fault Refusal := commit s (lameWindowBody s)

end Sys2Proof.Machine
end

