-- ==== Sys2Proof/Machine/Ogg.lean ====
section
/-! DEFINITION. The Ogg page synchronizer and decoder: OGG_SYNC, OGG_DECODE, OGG_SCAN (spec/44_ogg.md; record
layout 30_encoding.md R113). -/

namespace Sys2Proof.Machine

/-- `OggMatch(off)` on the five bytes at `off` (44_ogg.md R310). -/
def oggMatch (bs : List Byte) : Bool := bs == oggMagic

/-- The Ogg page header's decoded fields (44_ogg.md R311). -/
structure OggPage where
  headerType : Byte
  absolutePosition : BitVec 64
  streamSerial : Word
  pageNum : Word
  checksum : Word
  segments : Byte
  /-- `T[0 .. segments-1]`, the lacing values. -/
  segmentSizeTable : List Byte
  deriving DecidableEq, Repr

/-- `OggDecode` of the 22 bytes `off+5 .. off+26` and the segment table (R311): offsets here count from +5. -/
def oggDecode (fixed table : List Byte) : OggPage where
  headerType := leField fixed 0 1
  absolutePosition := leField fixed 1 8
  streamSerial := leField fixed 9 4
  pageNum := leField fixed 13 4
  checksum := leField fixed 17 4
  segments := leField fixed 21 1
  segmentSizeTable := table

/-- `pageSize = 27 + seg + sum(T)` (44_ogg.md R313). -/
def oggPageSize (p : OggPage) : Nat :=
  27 + p.segments.toNat + (p.segmentSizeTable.map fun b => b.toNat).sum

/-- BODY_TRUNC: the page ends beyond the buffer (44_ogg.md R314). -/
def oggBodyTrunc (length off : Nat) (p : OggPage) : Bool := decide (length < off + oggPageSize p)

/-- The Ogg record (44_ogg.md R314, 30_encoding.md R113). -/
def oggRecord (length off : Nat) (p : OggPage) (incomplete : Bool) : List Word :=
  [recordHeader 0x03 (9 + (p.segments.toNat + 3) / 4)
     (0#11 ++ bit (oggBodyTrunc length off p) ++ p.headerType.extractLsb' 0 3) incomplete,
   word off,
   word (oggPageSize p),
   p.absolutePosition.extractLsb' 0 32,
   p.absolutePosition.extractLsb' 32 32,
   p.streamSerial,
   p.pageNum,
   p.checksum,
   0#16 ++ p.headerType ++ p.segments] ++ packLe p.segmentSizeTable

/-- `OggAdvance(p) = pageSize - OGG_ADV_ADJ` (44_ogg.md R318). -/
def oggAdvance (params : Params) (p : OggPage) : Nat := oggPageSize p - params.oggAdvAdj

/-- Decode the page at `off` where it is decodable: the fixed 27 bytes and the whole segment table lie below `L`,
the second tested only when the first holds (44_ogg.md R312). -/
def withPage (s : State) (off : Nat) (page : OggPage → StepResult) (truncated : StepResult) : StepResult :=
  if off + 27 ≤ bufferLength s then
    withByte s (off + 26) fun seg =>
      if off + 27 + seg.toNat ≤ bufferLength s then
        withBytes s (off + 5) 22 fun fixed =>
          withBytes s (off + 27) seg.toNat fun table => page (oggDecode fixed table)
      else truncated
  else truncated

/-- OGG_SYNC's engine step (R315). -/
def oggSyncBody (s : State) : StepResult :=
  if bufferLength s < arg0Value s + 5 then .done (finish .truncated (setRes { s.res with r0 := 0 } s))
  else
    withBytes s (arg0Value s) 5 fun bs =>
      .done (finish .ok (setRes { s.res with r0 := if oggMatch bs then 1 else 0 } s))

/-- OGG_SYNC (44_ogg.md R315). -/
def execOggSync (s : State) : Host.Outcome State Fault Refusal := commit s (oggSyncBody s)

/-- OGG_DECODE's engine step: no magic test (R316). -/
def oggDecodeBody (s : State) : StepResult :=
  withPage s (arg0Value s)
    (fun p => pushOne s (oggRecord (bufferLength s) (arg0Value s) p false)
      (oggBodyTrunc (bufferLength s) (arg0Value s) p) .ok)
    (.done (finish .truncated s))

/-- OGG_DECODE (44_ogg.md R316). -/
def execOggDecode (s : State) : Host.Outcome State Fault Refusal := commit s (oggDecodeBody s)

/-- OGG_SCAN's iteration at OFF (R317). -/
def oggScanIteration (s : State) : StepResult :=
  withBytes s s.off.toNat 5 fun magic =>
    if oggMatch magic then
      withPage s s.off.toNat
        (fun p => pushHeader s (oggRecord (bufferLength s) s.off.toNat p)
          (oggBodyTrunc (bufferLength s) s.off.toNat p) (oggPageSize p) (oggAdvance s.params p)
          (seqCheck p.pageNum))
        (.done (truncatedCandidate s))
    else .done (noCandidate s)

/-- OGG_SCAN's engine step: an iteration while `OFF + 5 <= L`, else the end (R317). -/
def oggScanBody (s : State) : StepResult :=
  if s.off.toNat + 5 ≤ bufferLength s then oggScanIteration s else .done (finish (scanCode s) s)

/-- OGG_SCAN (44_ogg.md R317). -/
def execOggScan (s : State) : Host.Outcome State Fault Refusal := commit s (oggScanBody s)

end Sys2Proof.Machine
end

