-- ==== Sys2Proof/Machine/Opus.lean ====
section
/-! DEFINITION. The Opus identification header and the TOC byte: OPUSHEAD_FIND, OPUSTAGS_TEST, TOC_DECODE
(spec/45_opus.md). -/

namespace Sys2Proof.Machine

/-- The TOC byte's config, bits 7:3 (45_opus.md R345). -/
def tocConfig (t : Byte) : BitVec 5 := byteField t 5 3

/-- The stereo flag, bit 2 (R345). -/
def tocStereo (t : Byte) : BitVec 1 := byteField t 1 2

/-- The frame-count code, bits 1:0 (R345). -/
def tocCode (t : Byte) : BitVec 2 := byteField t 2 0

/-- Mode (45_opus.md R346). -/
def tocMode (config : Nat) : OpusMode :=
  if config < 12 then .silk else if config < 16 then .hybrid else .celt

/-- Bandwidth, by mode (45_opus.md R347). -/
def tocBandwidth (config : Nat) : OpusBandwidth :=
  match tocMode config with
  | .silk => if config < 4 then .nb else if config < 8 then .mb else .wb
  | .hybrid => if config < 14 then .swb else .fb
  | .celt => if config < 20 then .nb else if config < 24 then .wb else if config < 28 then .swb else .fb

/-- The duration in units of 0.5 ms, by mode (45_opus.md R348, 10_state.md R43). -/
def tocDuration (config : Nat) : Nat :=
  match tocMode config with
  | .silk => [20, 40, 80, 120].getD (config % 4) 0
  | .hybrid => [20, 40].getD (config % 2) 0
  | .celt => [5, 10, 20, 40].getD (config % 4) 0

/-- The channel count: 2 where the stereo flag is set, else 1 (45_opus.md R349). -/
def tocChannels (t : Byte) : Nat := if tocStereo t = 1 then 2 else 1

/-- `TocWord(t)` (45_opus.md R351). -/
def tocWord (t : Byte) : Word :=
  0#9 ++ tocCode t ++ BitVec.ofNat 2 (tocChannels t) ++ tocStereo t
    ++ BitVec.ofNat 8 (tocDuration (tocConfig t).toNat) ++ (tocBandwidth (tocConfig t).toNat).code
    ++ (tocMode (tocConfig t).toNat).code ++ tocConfig t

/-- The result registers of an identification header found at `off`, from its bytes `off+8 .. off+18`
(45_opus.md R341, R342): offsets here count from +8. -/
def opusHeadResults (off : Nat) (bs : List Byte) (r : Results) : Results :=
  { r with
    r0 := 1
    r1 := word off
    r2 := 0#8 ++ leField bs 10 1 ++ leField bs 1 1 ++ leField bs 0 1
    r3 := 0#16 ++ leField bs 2 2
    r4 := leField bs 4 4
    r5 := (leField bs 8 2).signExtend 32 }

/-- `EmbeddedToc(off)`: RES6 and RES7 from the byte at the OPEN parameter `OPUS_TOC_OFFSET` (45_opus.md R343). -/
def embeddedToc (s : State) (off : Nat) (r : Results) (k : Results → StepResult) : StepResult :=
  match s.params.opusTocOffset with
  | none => k { r with r6 := 0, r7 := 0 }
  | some d =>
    if bufferLength s ≤ off + d then k { r with r6 := 0, r7 := 0 }
    else withByte s (off + d) fun t => k { r with r6 := tocWord t, r7 := 0#16 ++ t ++ 1#8 }

/-- OPUSHEAD_FIND's iteration at OFF: a hit needs 19 bytes; a magic nearer the end is counted as truncated
(R342, 40_engine.md R159). -/
def opusheadIteration (s : State) : StepResult :=
  withBytes s s.off.toNat 8 fun magic =>
    if magic = opusHeadMagic then
      if s.off.toNat + 19 ≤ bufferLength s then
        withBytes s (s.off.toNat + 8) 11 fun bs =>
          embeddedToc s s.off.toNat (opusHeadResults s.off.toNat bs s.res) fun r =>
            .done (finish .ok (setRes r (countStep s)))
      else .done (truncatedCandidate s)
    else .done (noCandidate s)

/-- OPUSHEAD_FIND's engine step: an iteration while `OFF + 8 <= L`, else the miss (R342). -/
def opusheadFindBody (s : State) : StepResult :=
  if s.off.toNat + 8 ≤ bufferLength s then opusheadIteration s
  else .done (finish .notFound (setRes { s.res with r0 := 0, r1 := 0xFFFFFFFF } s))

/-- OPUSHEAD_FIND (45_opus.md R342). -/
def execOpusheadFind (s : State) : Host.Outcome State Fault Refusal := commit s (opusheadFindBody s)

/-- OPUSTAGS_TEST's engine step (R344). -/
def opustagsTestBody (s : State) : StepResult :=
  if bufferLength s < arg0Value s + 8 then .done (finish .truncated (setRes { s.res with r0 := 0 } s))
  else
    withBytes s (arg0Value s) 8 fun bs =>
      .done (finish .ok (setRes { s.res with r0 := if bs = opusTagsMagic then 1 else 0 } s))

/-- OPUSTAGS_TEST (45_opus.md R344). -/
def execOpustagsTest (s : State) : Host.Outcome State Fault Refusal := commit s (opustagsTestBody s)

/-- TOC_DECODE's engine step (R351). -/
def tocDecodeBody (s : State) : StepResult :=
  .done (finish .ok (setRes { s.res with r0 := tocWord (arg0Byte s), r1 := 0#24 ++ arg0Byte s } s))

/-- TOC_DECODE (45_opus.md R351). -/
def execTocDecode (s : State) : Host.Outcome State Fault Refusal := commit s (tocDecodeBody s)

end Sys2Proof.Machine
end

