-- ==== Sys2Proof/Machine/Engine.lean ====
section
/-! DEFINITION. The engine's next step before it is committed, and command acceptance (40_engine.md R151 to R155). -/

namespace Sys2Proof.Machine

/-- The engine step of a running command, before a hold is turned into "no effect" (40_engine.md R155). STATUS.STALL
looks at it. -/
def stepBody : Instr → State → StepResult
  | .nop => nopBody
  | .fifoClear => fifoClearBody
  | .extract => extractBody
  | .extractBuf => extractBufBody
  | .adtsSync => adtsSyncBody
  | .adtsDecode => adtsDecodeBody
  | .adtsScan => adtsScanBody
  | .mp3Sync => mp3SyncBody
  | .mp3Decode => mp3DecodeBody
  | .mp3Scan => mp3ScanBody
  | .id3Find => id3FindBody
  | .xingDetect => xingDetectBody
  | .lameWindow => lameWindowBody
  | .oggSync => oggSyncBody
  | .oggDecode => oggDecodeBody
  | .oggScan => oggScanBody
  | .opusheadFind => opusheadFindBody
  | .opustagsTest => opustagsTestBody
  | .tocDecode => tocDecodeBody

/-- The command the engine runs, read from `op` (10_state.md R45). -/
def runningCommand (s : State) : Option Instr := decodeOpcode s.op

/-- STATUS.STALL: BUSY, and the engine's next step is held for FIFO space (10_state.md R23, 40_engine.md R160). -/
def stallBit (s : State) : Bool :=
  match s.phase, runningCommand s with
  | .busy, some i => decide (stepBody i s = .held)
  | _, _ => false

/-- The acceptance actions that every CMD write in IDLE performs, legal or not (40_engine.md R151). -/
def latchCommand (c : Word) (s : State) : State :=
  { s with
    cmd := c
    done := false
    code := .ok
    res := .zero
    steps := 0
    recCount := 0
    truncCount := 0
    invalidCount := 0
    incompleteCount := 0
    monoOk := c == 0x00000032
    missingValid := false
    havePage := false
    oggMissing := 0
    havePrev := false
    prevEnd := 0
    prevPn := 0
    off := s.arg0 }

/-- `op <- c[7:0] ; phase <- BUSY` (40_engine.md R151). -/
def startEngine (c : Word) (s : State) : State := { s with op := opcField c, phase := .busy }

/-- The RANGE check of a command that reads IBUF (40_engine.md R154). -/
def outOfRange (i : Instr) (s : State) : Bool := readsBuf i && decide (s.params.ibufCap < s.bufLen.toNat)

/-- Command acceptance: a CMD write in IDLE. ILLEGAL wins over RANGE (40_engine.md R151, R153, R154;
60_exceptions.md R406). -/
def acceptCommand (c : Word) (s : State) : State :=
  match decode c with
  | .illegal _ => finish .illegal (latchCommand c s)
  | .command i =>
    if outOfRange i s then finish .range (latchCommand c s) else startEngine c (latchCommand c s)

end Sys2Proof.Machine
end

