-- ==== Sys2Proof/Machine/Dispatch.lean ====
section
/-! DEFINITION. What each command's engine step does (40_engine.md R155): one arm per constructor, one call per arm. -/

namespace Sys2Proof.Machine

def exec (i : Instr) (s : State) : Host.Outcome State Fault Refusal :=
  match i with
  | .nop => Sys2Proof.Machine.execNop s
  | .fifoClear => Sys2Proof.Machine.execFifoClear s
  | .extract => Sys2Proof.Machine.execExtract s
  | .extractBuf => Sys2Proof.Machine.execExtractBuf s
  | .adtsSync => Sys2Proof.Machine.execAdtsSync s
  | .adtsDecode => Sys2Proof.Machine.execAdtsDecode s
  | .adtsScan => Sys2Proof.Machine.execAdtsScan s
  | .mp3Sync => Sys2Proof.Machine.execMp3Sync s
  | .mp3Decode => Sys2Proof.Machine.execMp3Decode s
  | .mp3Scan => Sys2Proof.Machine.execMp3Scan s
  | .id3Find => Sys2Proof.Machine.execId3Find s
  | .xingDetect => Sys2Proof.Machine.execXingDetect s
  | .lameWindow => Sys2Proof.Machine.execLameWindow s
  | .oggSync => Sys2Proof.Machine.execOggSync s
  | .oggDecode => Sys2Proof.Machine.execOggDecode s
  | .oggScan => Sys2Proof.Machine.execOggScan s
  | .opusheadFind => Sys2Proof.Machine.execOpusheadFind s
  | .opustagsTest => Sys2Proof.Machine.execOpustagsTest s
  | .tocDecode => Sys2Proof.Machine.execTocDecode s

end Sys2Proof.Machine
end

