-- ==== Sys2Proof/Machine/HostPort.lean ====
section
/-! DEFINITION. What the host can do: register accesses (10_state.md R20 to R39), IBUF port accesses
(20_memory.md R71, R81) and the reset input (70_reset_and_hazards.md R450). -/

namespace Sys2Proof.Machine

/-- The registers of the window (10_state.md R20). -/
inductive Reg
  | ctrl
  | status
  | cmd
  | bufLen
  | arg0
  | arg1
  | off
  | steps
  | recCount
  | truncCount
  | invalidCount
  | incompleteCount
  | oggSeq
  | oggMissing
  | outLevel
  | outData
  | res0
  | res1
  | res2
  | res3
  | res4
  | res5
  | res6
  | res7
  deriving DecidableEq, Repr

/-- The register map of 10_state.md R20, row by row; the slots 0x60 to 0xFC are reserved. -/
def registerMap : List (BitVec 8 × Reg) :=
  [(0x00, .ctrl), (0x04, .status), (0x08, .cmd), (0x0C, .bufLen),
   (0x10, .arg0), (0x14, .arg1), (0x18, .off), (0x1C, .steps),
   (0x20, .recCount), (0x24, .truncCount), (0x28, .invalidCount), (0x2C, .incompleteCount),
   (0x30, .oggSeq), (0x34, .oggMissing), (0x38, .outLevel), (0x3C, .outData),
   (0x40, .res0), (0x44, .res1), (0x48, .res2), (0x4C, .res3),
   (0x50, .res4), (0x54, .res5), (0x58, .res6), (0x5C, .res7)]

/-- The register at a byte offset, none in a reserved slot. -/
def registerAt (offset : BitVec 8) : Option Reg := registerMap.lookup offset

/-- OUT_DATA's read value: the oldest word, 0 when the FIFO is empty (10_state.md R38). -/
def outDataWord (s : State) : Word :=
  match s.fifo with
  | w :: _ => w
  | [] => 0

/-- The effect of an OUT_DATA read: the oldest word is removed; an empty FIFO sets UNDERFLOW (R38). -/
def popOutData (s : State) : State :=
  match s.fifo with
  | _ :: rest => { s with fifo := rest }
  | [] => { s with underflow := true }

/-- The value a register reads as (10_state.md R20 to R38). -/
def regValue (r : Reg) (s : State) : Word :=
  match r with
  | .ctrl => ctrlWord s
  | .status => statusWord s (stallBit s)
  | .cmd => s.cmd
  | .bufLen => s.bufLen
  | .arg0 => s.arg0
  | .arg1 => s.arg1
  | .off => s.off
  | .steps => s.steps
  | .recCount => s.recCount
  | .truncCount => s.truncCount
  | .invalidCount => s.invalidCount
  | .incompleteCount => s.incompleteCount
  | .oggSeq => oggSeqWord s
  | .oggMissing => oggMissingWord s
  | .outLevel => word s.fifo.length
  | .outData => outDataWord s
  | .res0 => s.res.r0
  | .res1 => s.res.r1
  | .res2 => s.res.r2
  | .res3 => s.res.r3
  | .res4 => s.res.r4
  | .res5 => s.res.r5
  | .res6 => s.res.r6
  | .res7 => s.res.r7

/-- What reading a register does: only OUT_DATA's read has an effect (10_state.md R21). -/
def afterRead (r : Reg) (s : State) : State :=
  match r with
  | .outData => popOutData s
  | _ => s

/-- A CTRL write: SRST = 1 resets the block and the same write's IE is ignored; otherwise IE is written
(10_state.md R22, 70_reset_and_hazards.md R453). -/
def writeCtrl (v : Word) (s : State) : State :=
  if v.getLsbD 1 then resetBlock s else { s with ie := v.getLsbD 0 }

/-- A CMD write: accepted in IDLE, rejected while BUSY (40_engine.md R151, R152). -/
def writeCmd (v : Word) (s : State) : State :=
  match s.phase with
  | .idle => acceptCommand v s
  | .busy => { s with reject := true }

/-- A W-busy-ignored write: it has its effect only in IDLE (10_state.md R20). -/
def whenIdle (s t : State) : State :=
  match s.phase with
  | .idle => t
  | .busy => s

/-- What writing a register does; a read-only register ignores it (10_state.md R20). -/
def writeReg (r : Reg) (v : Word) (s : State) : State :=
  match r with
  | .ctrl => writeCtrl v s
  | .status => clearStatus v s
  | .cmd => writeCmd v s
  | .bufLen => whenIdle s { s with bufLen := v }
  | .arg0 => whenIdle s { s with arg0 := v }
  | .arg1 => whenIdle s { s with arg1 := v }
  | _ => s

/-- A host access is one aligned 32-bit word (10_state.md R21). -/
def alignedWord (offset : BitVec 8) (bits : Nat) : Bool := offset.toNat % 4 == 0 && bits == 32

/-- Add a value to what the host has read. -/
def reply (r : Reply) (s : State) : State := { s with replies := s.replies ++ [r] }

/-- A register read (10_state.md R21): a reserved slot reads 0. -/
def regRead (offset : BitVec 8) (bits : Nat) (s : State) : Host.Outcome State Fault Refusal :=
  if alignedWord offset bits then
    match registerAt offset with
    | some r => .next (reply (.word (regValue r s)) (afterRead r s))
    | none => .next (reply (.word 0) s)
  else .refused (.notAnAlignedWord offset bits)

/-- A register write (10_state.md R21): a write to a reserved slot is ignored. -/
def regWrite (offset : BitVec 8) (bits : Nat) (v : Word) (s : State) : Host.Outcome State Fault Refusal :=
  if alignedWord offset bits then
    match registerAt offset with
    | some r => .next (writeReg r v s)
    | none => .next s
  else .refused (.notAnAlignedWord offset bits)

/-- `ibuf_read(a)` (20_memory.md R71). -/
def ibufRead (a : Nat) (s : State) : Host.Outcome State Fault Refusal :=
  if a < s.params.ibufCap then
    match readByte s.ibuf a with
    | .ok b => .next (reply (.byte b) s)
    | .error f => .fault f
  else .refused (.outsideIbuf a)

/-- `ibuf_write(a, v)` (20_memory.md R71); there is no such move below `L` while BUSY (R81). -/
def ibufWrite (a : Nat) (v : Byte) (s : State) : Host.Outcome State Fault Refusal :=
  if a < s.params.ibufCap then
    if s.phase = .busy ∧ a < bufferLength s then .refused (.ibufWriteWhileBusy a)
    else .next { s with ibuf := setByte s.ibuf a v }
  else .refused (.outsideIbuf a)

end Sys2Proof.Machine
end

