-- ==== Sys2Proof/Machine/Turn.lean ====
section
/-! DEFINITION. One move of the total order of 20_memory.md R80, and how a command word comes to run. -/

namespace Sys2Proof.Machine

/-- The engine's turn: a step of the running command while BUSY; while IDLE the engine has no step and nothing
changes (40_engine.md R150, R155; 60_exceptions.md R416). -/
def engineTurn (s : State) : Host.Outcome State Fault Refusal :=
  match s.phase with
  | .idle => .next s
  | .busy =>
    match runningCommand s with
    | some i => exec i s
    | none => .refused (.strayOpcode s.op)

/-- One move of either agent, or the reset input (40_engine.md R150, 70_reset_and_hazards.md R462). -/
def takeMove (m : Move) (s : State) : Host.Outcome State Fault Refusal :=
  match m with
  | .engine => engineTurn s
  | .reset => .next (resetBlock s)
  | .regRead offset bits => regRead offset bits s
  | .regWrite offset bits v => regWrite offset bits v s
  | .ibufRead a => ibufRead a s
  | .ibufWrite a v => ibufWrite a v s

/-- The next move: the script's first, and the engine's turn when the script is empty (20_memory.md R80,
70_reset_and_hazards.md R470). -/
def nextMove (s : State) : Host.Outcome State Fault Refusal :=
  match s.script with
  | [] => engineTurn s
  | m :: rest => takeMove m { s with script := rest }

/-- The word placed in CMD and accepted as 40_engine.md R151 accepts it, less the RANGE check, with the engine to
move next: the very next step runs the command (log entry 4). -/
def loadCommand (c : Word) (s : State) : State :=
  match decode c with
  | .command _ => { startEngine c (latchCommand c s) with script := .engine :: s.script }
  | .illegal _ => { finish .illegal (latchCommand c s) with script := .engine :: s.script }

end Sys2Proof.Machine
end

