-- ==== Sys2Proof/Machine/Step.lean ====
section
/-! DEFINITION. The step: the next atomic transition of the block (20_memory.md R80, 70_reset_and_hazards.md R470). -/

namespace Sys2Proof.Machine

/-- One step: the next move of the host or the engine. -/
def step (s : State) : Host.Outcome State Fault Refusal := nextMove s

/-- The state in which the very next step runs the command word `w` (of `nbits` bits, those above them 0). -/
def State.withFetchWord (s : State) (nbits w : Nat) : State := loadCommand (BitVec.ofNat 32 (w % 2 ^ nbits)) s

end Sys2Proof.Machine
end

