-- ==== Sys2Proof/Machine/HostProgram.lean ====
section
/-! DEFINITION. Host programs (30_encoding.md R105, R106): the operations of the assembler, the pseudo-instructions,
and the host moves each of them stands for. -/

namespace Sys2Proof.Machine

/-- The byte offset of a register (10_state.md R20). -/
def regOffset : Reg → BitVec 8
  | .ctrl => 0x00
  | .status => 0x04
  | .cmd => 0x08
  | .bufLen => 0x0C
  | .arg0 => 0x10
  | .arg1 => 0x14
  | .off => 0x18
  | .steps => 0x1C
  | .recCount => 0x20
  | .truncCount => 0x24
  | .invalidCount => 0x28
  | .incompleteCount => 0x2C
  | .oggSeq => 0x30
  | .oggMissing => 0x34
  | .outLevel => 0x38
  | .outData => 0x3C
  | .res0 => 0x40
  | .res1 => 0x44
  | .res2 => 0x48
  | .res3 => 0x4C
  | .res4 => 0x50
  | .res5 => 0x54
  | .res6 => 0x58
  | .res7 => 0x5C

/-- ARG1's fields on a command line, `w=W, s=S, n=N` (R106): W and S of 6 bits, NB = N - 1 of 2 bits. -/
structure ExtractFields where
  w : BitVec 6
  s : BitVec 6
  nb : BitVec 2
  deriving DecidableEq, Repr

/-- `W | (S << 8) | ((N-1) << 16)` (R106). -/
def arg1Word (f : ExtractFields) : Word := 0#14 ++ f.nb ++ 0#2 ++ f.s ++ 0#2 ++ f.w

/-- A line of a host program (R105, R106). -/
inductive Line
  /-- `wr NAME, value`. -/
  | wr (r : Reg) (value : Word)
  /-- `rd NAME`. -/
  | rd (r : Reg)
  /-- `ib addr, b0 b1 ...`. -/
  | ib (addr : Nat) (bytes : List Byte)
  /-- `; ...`. -/
  | comment (text : String)
  /-- A command line, `OP a0` or `OP a0, w=W, s=S, n=N`. Its `wait_done` polls STATUS `polls` times. -/
  | command (i : Instr) (a0 : Word) (fields : Option ExtractFields) (polls : Nat)
  /-- A command line that is a mnemonic alone, of a command without operands (R164, R165). DESIGN CHOICE, log entry
  16. -/
  | bareCommand (i : Instr) (polls : Nat)
  /-- `wait_done`: STATUS is read until DONE reads 1, here after `polls` reads, and DONE is cleared. -/
  | waitDone (polls : Nat)
  /-- `drain k`. -/
  | drain (k : Nat)
  /-- `setbuf addr, bytes...`. -/
  | setbuf (addr : Nat) (bytes : List Byte)
  deriving DecidableEq, Repr

/-- `wr NAME, value` is the transaction `W <offset> <data>` (R105). -/
def writeMove (r : Reg) (v : Word) : Move := .regWrite (regOffset r) 32 v

/-- `rd NAME` is the transaction `R <offset>` (R105). -/
def readMove (r : Reg) : Move := .regRead (regOffset r) 32

/-- `ib addr, bytes` is one transaction `B <addr> <data>` per byte, consecutive (R105). -/
def ibMoves : Nat → List Byte → List Move
  | _, [] => []
  | a, b :: rest => .ibufWrite a b :: ibMoves (a + 1) rest

/-- `wait_done`'s transactions: the reads of STATUS, then the write that clears DONE (R106). How many reads there
are depends on the interleaving. -/
def waitDoneMoves (polls : Nat) : List Move := List.replicate polls (readMove .status) ++ [writeMove .status 2]

/-- The bus transactions a line stands for (R105, R106). R106 expands only `OP a0`; a bare mnemonic is the same without
the ARG0 write: DESIGN CHOICE, log entry 16. -/
def lineMoves : Line → List Move
  | .wr r v => [writeMove r v]
  | .rd r => [readMove r]
  | .ib a bytes => ibMoves a bytes
  | .comment _ => []
  | .command i a0 none polls => [writeMove .arg0 a0, writeMove .cmd (encode i)] ++ waitDoneMoves polls
  | .command i a0 (some f) polls =>
    [writeMove .arg0 a0, writeMove .arg1 (arg1Word f), writeMove .cmd (encode i)] ++ waitDoneMoves polls
  | .bareCommand i polls => writeMove .cmd (encode i) :: waitDoneMoves polls
  | .waitDone polls => waitDoneMoves polls
  | .drain k => List.replicate k (readMove .outData)
  | .setbuf a bytes => ibMoves a bytes ++ [writeMove .bufLen (word (a + bytes.length))]

/-- A host program's bus transactions, in program order (R105). -/
def programMoves (lines : List Line) : List Move := lines.flatMap lineMoves

end Sys2Proof.Machine
end

