-- ==== Sys2Proof/Safety.lean ====
section
/-! DEFINITION. The vocabulary of the claims: the spec's own notation for buffer values and record words, written
over exact integers (00_scope.md R9 to R11) and without the model's decoders; what the host owes a command
(70_reset_and_hazards.md R454, R455); and the invariants every step keeps. -/

namespace Sys2Proof.Claims

open Sys2Proof.Machine

/-- `IBUF[a]` as a number (00_scope.md R11); used only where the byte is written. -/
def ibuf (s : State) (a : Nat) : Nat :=
  match byteAt s.ibuf a with
  | some b => b.toNat
  | none => 0

/-- The bytes `a .. a+n-1` have been written since power-up (20_memory.md R71). -/
abbrev Written (s : State) (a n : Nat) : Prop := ∀ i < n, byteAt s.ibuf (a + i) ≠ none

/-- `L` (10_state.md R26). -/
abbrev len (s : State) : Nat := s.bufLen.toNat

/-- The FIFO has room for `n` more words (40_engine.md R160). -/
abbrev Room (s : State) (n : Nat) : Prop := n ≤ s.params.outDepth - s.fifo.length

/-- `BE(a, n)` as 00_scope.md R11 sums it. -/
def beSum (s : State) (a n : Nat) : Nat := ((List.range n).map fun i => ibuf s (a + i) * 2 ^ (8 * (n - 1 - i))).sum

/-- `LE(a, n)` as 00_scope.md R11 sums it. -/
def leSum (s : State) (a n : Nat) : Nat := ((List.range n).map fun i => ibuf s (a + i) * 2 ^ (8 * i)).sum

/-- 1 for true, 0 for false: a flag as a summand. -/
def flag (p : Prop) [Decidable p] : Nat := if p then 1 else 0

/-- The bytes `a .. a+n-1` packed four to a word, byte `k` in word `k div 4` at bits `8*(k mod 4)+7 : 8*(k mod 4)`,
the unused high bytes of the last word 0 (20_memory.md R74). -/
def packed (s : State) (a n : Nat) : List Word :=
  (List.range ((n + 3) / 4)).map fun j =>
    BitVec.ofNat 32 ((List.range 4).map fun k => if 4 * j + k < n then ibuf s (a + (4 * j + k)) * 2 ^ (8 * k) else 0).sum

/-- The two bytes at `a` are an ADTS sync: 0xFF, then one of the four bytes of 42_adts.md R220. -/
abbrev AdtsSync (s : State) (a : Nat) : Prop :=
  ibuf s a = 0xFF ∧ (ibuf s (a + 1) = 0xF0 ∨ ibuf s (a + 1) = 0xF1 ∨ ibuf s (a + 1) = 0xF8 ∨ ibuf s (a + 1) = 0xF9)

/-- The two bytes at `a` are an MPEG-audio sync: 0xFF, then bits 7:5 all 1 (43_mp3.md R260). -/
abbrev MpegSync (s : State) (a : Nat) : Prop := ibuf s a = 0xFF ∧ 0xE0 ≤ ibuf s (a + 1)

/-- The bytes at `a` are the given list. -/
abbrev Matches (s : State) (a : Nat) (bytes : List Nat) : Prop := (List.range bytes.length).map (fun i => ibuf s (a + i)) = bytes

/-- "OggS" and a zero byte (10_state.md R44). -/
abbrev OggMagic (s : State) (a : Nat) : Prop := Matches s a [0x4F, 0x67, 0x67, 0x53, 0x00]

/-- "OpusHead" (10_state.md R44). -/
abbrev OpusHead (s : State) (a : Nat) : Prop := Matches s a [0x4F, 0x70, 0x75, 0x73, 0x48, 0x65, 0x61, 0x64]

/-- "OpusTags" (10_state.md R44). -/
abbrev OpusTags (s : State) (a : Nat) : Prop := Matches s a [0x4F, 0x70, 0x75, 0x73, 0x54, 0x61, 0x67, 0x73]

/-- The ID3v2 header pattern (43_mp3.md R270). -/
abbrev Id3Header (s : State) (a : Nat) : Prop :=
  ibuf s a = 0x49 ∧ ibuf s (a + 1) = 0x44 ∧ ibuf s (a + 2) = 0x33 ∧ ibuf s (a + 3) < 0xFF ∧ ibuf s (a + 4) < 0xFF ∧
    ibuf s (a + 6) < 0x80 ∧ ibuf s (a + 7) < 0x80 ∧ ibuf s (a + 8) < 0x80 ∧ ibuf s (a + 9) < 0x80

/-! ADTS fields of the header at `a`, in the "equivalently" column of 42_adts.md R221. -/

/-- protectionAbsent, `b1[0]`. -/
def adtsProtectionAbsent (s : State) (a : Nat) : Nat := ibuf s (a + 1) % 2

/-- layer, `b1[2:1]`. -/
def adtsLayer (s : State) (a : Nat) : Nat := ibuf s (a + 1) / 2 % 4

/-- samplingFrequencyIndex, `b2[5:2]`. -/
def adtsSfi (s : State) (a : Nat) : Nat := ibuf s (a + 2) / 4 % 16

/-- frameSize, `b3[1:0] : b4 : b5[7:5]`. -/
def adtsFrameSize (s : State) (a : Nat) : Nat := ibuf s (a + 3) % 4 * 2048 + ibuf s (a + 4) * 8 + ibuf s (a + 5) / 32

/-- headerSize (R223). -/
def adtsHeaderBytes (s : State) (a : Nat) : Nat := if adtsProtectionAbsent s a = 1 then 7 else 9

/-- Any of SR_INVALID, SIZE_INVALID, LAYER_INVALID (R224). -/
abbrev AdtsBad (s : State) (a : Nat) : Prop :=
  13 ≤ adtsSfi s a ∨ adtsFrameSize s a < adtsHeaderBytes s a ∨ adtsLayer s a ≠ 0

/-- `ADTS_SR` as the words of 30_encoding.md R111 hold it (10_state.md R40). -/
def adtsRateWord (i : Nat) : Nat :=
  [96000, 88200, 64000, 48000, 44100, 32000, 24000, 22050, 16000, 12000, 11025, 8000, 7350, 0, 0, 0xFFFFFFFF].getD i 0

/-- The ADTS record of 30_encoding.md R111 for the header at `a`. -/
def adtsWords (s : State) (a : Nat) (inc : Bool) : List Word :=
  [BitVec.ofNat 32 (0x01 + 6 * 2 ^ 8 + flag (adtsProtectionAbsent s a = 0) * 2 ^ 16 + flag (13 ≤ adtsSfi s a) * 2 ^ 17
      + flag (adtsFrameSize s a < adtsHeaderBytes s a) * 2 ^ 18 + flag (adtsLayer s a ≠ 0) * 2 ^ 19
      + flag (inc = true) * 2 ^ 31),
   BitVec.ofNat 32 a,
   BitVec.ofNat 32 (ibuf s (a + 1) / 8 % 2 + adtsLayer s a * 2 + adtsProtectionAbsent s a * 2 ^ 3
      + ibuf s (a + 2) / 64 * 2 ^ 4 + adtsSfi s a * 2 ^ 6 + ibuf s (a + 2) / 2 % 2 * 2 ^ 10
      + (ibuf s (a + 2) % 2 * 4 + ibuf s (a + 3) / 64) * 2 ^ 11 + ibuf s (a + 3) / 32 % 2 * 2 ^ 14
      + ibuf s (a + 3) / 16 % 2 * 2 ^ 15 + ibuf s (a + 3) / 8 % 2 * 2 ^ 16 + ibuf s (a + 3) / 4 % 2 * 2 ^ 17
      + ibuf s (a + 6) % 4 * 2 ^ 18 + (ibuf s (a + 6) % 4 + 1) * 2 ^ 20 + adtsHeaderBytes s a * 2 ^ 24),
   BitVec.ofNat 32 (adtsFrameSize s a + (ibuf s (a + 5) % 32 * 64 + ibuf s (a + 6) / 4) * 2 ^ 16),
   BitVec.ofNat 32 (if adtsProtectionAbsent s a = 0 then ibuf s (a + 7) * 256 + ibuf s (a + 8) else 0),
   BitVec.ofNat 32 (adtsRateWord (adtsSfi s a))]

/-! MPEG-audio fields of the header at `a` (43_mp3.md R261 to R265). -/

/-- version bits, `b1[4:3]`. -/
def mpegVb (s : State) (a : Nat) : Nat := ibuf s (a + 1) / 8 % 4

/-- layer bits, `b1[2:1]`. -/
def mpegLb (s : State) (a : Nat) : Nat := ibuf s (a + 1) / 2 % 4

/-- bitrate index, `b2[7:4]`. -/
def mpegBi (s : State) (a : Nat) : Nat := ibuf s (a + 2) / 16

/-- sample-rate index, `b2[3:2]`. -/
def mpegSi (s : State) (a : Nat) : Nat := ibuf s (a + 2) / 4 % 4

/-- The bitrate row, in kbit/s for indices 1 to 14, that version bits `vb` and layer bits `lb` choose
(10_state.md R41, 43_mp3.md R262); version bits 1 and layer bits 0 are Invalid. -/
def bitrateRow (vb lb : Nat) : List Nat :=
  if vb = 3 then
    if lb = 3 then [32, 64, 96, 128, 160, 192, 224, 256, 288, 320, 352, 384, 416, 448]
    else if lb = 2 then [32, 48, 56, 64, 80, 96, 112, 128, 160, 192, 224, 256, 320, 384]
    else [32, 40, 48, 56, 64, 80, 96, 112, 128, 160, 192, 224, 256, 320]
  else
    if lb = 3 then [32, 48, 56, 64, 80, 96, 112, 128, 144, 160, 176, 192, 224, 256]
    else [8, 16, 24, 32, 40, 48, 56, 64, 80, 96, 112, 128, 144, 160]

/-- Bitrate in bits/s (43_mp3.md R263). -/
def bitrate (s : State) (a : Nat) : Int :=
  if mpegVb s a = 1 ∨ mpegLb s a = 0 then -1
  else if mpegBi s a = 0 then 0
  else if mpegBi s a = 15 then -1
  else 1000 * ((bitrateRow (mpegVb s a) (mpegLb s a)).getD (mpegBi s a - 1) 0 : Nat)

/-- Sample rate in Hz (43_mp3.md R264, 10_state.md R42). -/
def sampleRate (s : State) (a : Nat) : Int :=
  if mpegVb s a = 1 ∨ mpegSi s a = 3 then -1
  else if mpegVb s a = 3 then [44100, 48000, 32000].getD (mpegSi s a) 0
  else if mpegVb s a = 2 then [22050, 24000, 16000].getD (mpegSi s a) 0
  else [11025, 12000, 8000].getD (mpegSi s a) 0

/-- Frame size in bytes (43_mp3.md R265). -/
def frameSize (s : State) (a : Nat) : Nat :=
  if 0 < bitrate s a ∧ 0 < sampleRate s a then 144 * (bitrate s a).toNat / ((sampleRate s a).toNat + 8) else 0

/-- The MPEG-audio record of 30_encoding.md R112 for the header at `a`. -/
def mpegWords (s : State) (a : Nat) (inc : Bool) : List Word :=
  [BitVec.ofNat 32 (0x02 + 6 * 2 ^ 8 + flag (mpegVb s a = 1) * 2 ^ 16 + flag (mpegLb s a = 0) * 2 ^ 17
      + flag (bitrate s a = -1) * 2 ^ 18 + flag (sampleRate s a = -1) * 2 ^ 19
      + flag (mpegBi s a = 0 ∧ mpegVb s a ≠ 1 ∧ mpegLb s a ≠ 0) * 2 ^ 20 + flag (inc = true) * 2 ^ 31),
   BitVec.ofNat 32 a,
   BitVec.ofNat 32 ([2, 3, 1, 0].getD (mpegVb s a) 0 + [3, 2, 1, 0].getD (mpegLb s a) 0 * 2 ^ 2
      + ibuf s (a + 1) % 2 * 2 ^ 4 + mpegBi s a * 2 ^ 5 + mpegSi s a * 2 ^ 9 + ibuf s (a + 2) / 2 % 2 * 2 ^ 11
      + ibuf s (a + 2) % 2 * 2 ^ 12),
   BitVec.ofInt 32 (bitrate s a),
   BitVec.ofInt 32 (sampleRate s a),
   BitVec.ofNat 32 (frameSize s a)]

/-- Any of VERSION_INVALID, LAYER_INVALID, BITRATE_INVALID, SR_INVALID (43_mp3.md R266, 40_engine.md R162). -/
abbrev MpegBad (s : State) (a : Nat) : Prop := mpegVb s a = 1 ∨ mpegLb s a = 0 ∨ bitrate s a = -1 ∨ sampleRate s a = -1

/-- The unsynchronised integer of the four size bytes at `a` (43_mp3.md R271). -/
def unsyncSum (s : State) (a : Nat) : Nat :=
  ibuf s a % 128 * 2 ^ 21 + ibuf s (a + 1) % 128 * 2 ^ 14 + ibuf s (a + 2) % 128 * 2 ^ 7 + ibuf s (a + 3) % 128

/-- ID3v2 tag size of the tag at `a` (43_mp3.md R272). -/
def tagSize (s : State) (a : Nat) : Nat := 10 + unsyncSum s (a + 6) + if ibuf s (a + 5) / 16 % 2 = 1 then 10 else 0

/-! Ogg fields of the page at `a` (44_ogg.md R311 to R314). -/

/-- The segment count. -/
def segments (s : State) (a : Nat) : Nat := ibuf s (a + 26)

/-- `pageSize = 27 + seg + sum of the table` (R313). -/
def pageSize (s : State) (a : Nat) : Nat :=
  27 + segments s a + ((List.range (segments s a)).map fun k => ibuf s (a + 27 + k)).sum

/-- The page number (R311). -/
def pageNum (s : State) (a : Nat) : Nat := leSum s (a + 18) 4

/-- The Ogg record of 44_ogg.md R314 for the page at `a`. -/
def oggWords (s : State) (a : Nat) (inc : Bool) : List Word :=
  [BitVec.ofNat 32 (0x03 + (9 + (segments s a + 3) / 4) * 2 ^ 8 + ibuf s (a + 5) % 8 * 2 ^ 16
      + flag (len s < a + pageSize s a) * 2 ^ 19 + flag (inc = true) * 2 ^ 31),
   BitVec.ofNat 32 a,
   BitVec.ofNat 32 (pageSize s a),
   BitVec.ofNat 32 (leSum s (a + 6) 8 % 2 ^ 32),
   BitVec.ofNat 32 (leSum s (a + 6) 8 / 2 ^ 32),
   BitVec.ofNat 32 (leSum s (a + 14) 4),
   BitVec.ofNat 32 (pageNum s a),
   BitVec.ofNat 32 (leSum s (a + 22) 4),
   BitVec.ofNat 32 (segments s a + ibuf s (a + 5) * 2 ^ 8)] ++ packed s (a + 27) (segments s a)

/-! The TOC byte (45_opus.md R345 to R351). -/

/-- Mode code (R346, 00_scope.md R16). -/
def modeCode (config : Nat) : Nat := if config < 12 then 0 else if config < 16 then 1 else 2

/-- Bandwidth code (R347, 00_scope.md R16): the table of 10_state.md R43, four configs a row. -/
def bandwidthCode (config : Nat) : Nat :=
  [0, 0, 0, 0, 1, 1, 1, 1, 2, 2, 2, 2, 3, 3, 4, 4, 0, 0, 0, 0, 2, 2, 2, 2, 3, 3, 3, 3, 4, 4, 4, 4].getD config 0

/-- Duration in units of 0.5 ms: the table of 10_state.md R43. -/
def durationHalves (config : Nat) : Nat :=
  [20, 40, 80, 120, 20, 40, 80, 120, 20, 40, 80, 120, 20, 40, 20, 40,
   5, 10, 20, 40, 5, 10, 20, 40, 5, 10, 20, 40, 5, 10, 20, 40].getD config 0

/-- `TocWord(t)` (R351). -/
def tocSum (t : Nat) : Nat :=
  t / 8 + modeCode (t / 8) * 2 ^ 5 + bandwidthCode (t / 8) * 2 ^ 7 + durationHalves (t / 8) * 2 ^ 10
    + t / 4 % 2 * 2 ^ 18 + (if t / 4 % 2 = 1 then 2 else 1) * 2 ^ 19 + t % 4 * 2 ^ 21

/-! States after a step. -/

/-- `finish(code)` (40_engine.md R156). -/
abbrev finished (c : Code) (s : State) : State := { s with phase := .idle, done := true, code := c }

/-- The INCOMPLETE bit of a header a scan pushes at OFF (40_engine.md R161). -/
abbrev isIncomplete (s : State) : Bool := s.havePrev && s.off != s.prevEnd

/-- A scan pushes `words` for a header at OFF that is `size` bytes long, and OFF moves by `advance`: Push, Count,
Chain and the advance of 40_engine.md R157, R160 to R163. -/
abbrev scanned (s : State) (words : List Word) (bad : Bool) (size advance : Nat) : State :=
  { s with
    steps := s.steps + 1
    fifo := s.fifo ++ words
    recCount := s.recCount + 1
    incompleteCount := if isIncomplete s then s.incompleteCount + 1 else s.incompleteCount
    invalidCount := if bad then s.invalidCount + 1 else s.invalidCount
    havePrev := true
    prevEnd := s.off + BitVec.ofNat 32 size
    off := s.off + BitVec.ofNat 32 advance }

/-- A one-shot decode pushes `words` and ends OK (40_engine.md R161, R162). -/
abbrev decoded (s : State) (words : List Word) (bad : Bool) : State :=
  finished .ok
    { s with
      fifo := s.fifo ++ words
      recCount := s.recCount + 1
      invalidCount := if bad then s.invalidCount + 1 else s.invalidCount }

/-- What every accepted CMD write of `w` does before it is judged (40_engine.md R151). -/
abbrev latched (s : State) (w : Word) : State :=
  { s with
    cmd := w, done := false, code := .ok, res := ⟨0, 0, 0, 0, 0, 0, 0, 0⟩, steps := 0, recCount := 0, truncCount := 0,
    invalidCount := 0, incompleteCount := 0, monoOk := decide (w = 0x00000032), missingValid := false,
    havePage := false, oggMissing := 0, havePrev := false, prevEnd := 0, prevPn := 0, off := s.arg0 }

/-! The bytes an engine step reads. -/

/-- The addresses `a .. a+n-1`. -/
def span (a n : Nat) : List Nat := (List.range n).map fun i => a + i

/-- The bytes that decoding the page at `a` reads: the segment count where the fixed 27 bytes lie below `L`, then the
fields from +5 on and the segment table where that lies below `L` too (44_ogg.md R311, R312). -/
def pageBytes (s : State) (a : Nat) : List Nat :=
  if a + 27 ≤ len s then
    (a + 26) :: if a + 27 + segments s a ≤ len s then span (a + 5) (22 + segments s a) else []
  else []

/-- The bytes of IBUF that the engine step of a command reads, in the order in which one that was never written is
found: those that the fields and patterns of its rule stand in, after the rule's check against `L` (20_memory.md R72;
the choice of bytes and their order are log entry 6). -/
def bytesRead (i : Instr) (s : State) : List Nat :=
  match i with
  | .nop | .fifoClear | .extract | .tocDecode => []
  | .extractBuf =>
    if s.arg0.toNat + (s.arg1.toNat / 2 ^ 16 % 4 + 1) ≤ len s then span s.arg0.toNat (s.arg1.toNat / 2 ^ 16 % 4 + 1)
    else []
  | .adtsSync | .mp3Sync => if s.arg0.toNat + 2 ≤ len s then span s.arg0.toNat 2 else []
  | .adtsDecode => if s.arg0.toNat + 19 ≤ len s then span s.arg0.toNat 9 else []
  | .adtsScan =>
    if s.off.toNat + 7 < len s then
      span s.off.toNat 2 ++
        if AdtsSync s s.off.toNat ∧ s.off.toNat + 19 ≤ len s then span s.off.toNat 9 else []
    else []
  | .mp3Decode => if s.arg0.toNat + 4 ≤ len s then span s.arg0.toNat 3 else []
  | .mp3Scan =>
    if s.off.toNat + 4 ≤ len s then
      span s.off.toNat 2 ++ if MpegSync s s.off.toNat then span s.off.toNat 3 else []
    else []
  | .id3Find =>
    if s.off.toNat + 10 ≤ len s then
      span s.off.toNat 5 ++ span (s.off.toNat + 6) 4 ++
        if Id3Header s s.off.toNat then [s.off.toNat + 5] else []
    else []
  | .xingDetect => if s.arg0.toNat + 40 ≤ len s then span (s.arg0.toNat + 36) 4 else []
  | .lameWindow =>
    span (s.arg0.toNat + 39) (min (s.arg0.toNat + 177) (len s) - (s.arg0.toNat + 39))
  | .oggSync => if s.arg0.toNat + 5 ≤ len s then span s.arg0.toNat 5 else []
  | .oggDecode => pageBytes s s.arg0.toNat
  | .oggScan =>
    if s.off.toNat + 5 ≤ len s then
      span s.off.toNat 5 ++ if OggMagic s s.off.toNat then pageBytes s s.off.toNat else []
    else []
  | .opusheadFind =>
    if s.off.toNat + 8 ≤ len s then
      span s.off.toNat 8 ++
        if OpusHead s s.off.toNat ∧ s.off.toNat + 19 ≤ len s then
          span (s.off.toNat + 8) 11 ++
            ((s.params.opusTocOffset.filter fun d => decide (s.off.toNat + d < len s)).map fun d =>
              s.off.toNat + d).toList
        else []
    else []
  | .opustagsTest => if s.arg0.toNat + 8 ≤ len s then span s.arg0.toNat 8 else []

/-- The first byte a command's step reads that the host has never written, if there is one. -/
def firstUnwritten (i : Instr) (s : State) : Option Nat :=
  (bytesRead i s).find? fun a => (byteAt s.ibuf a).isNone

/-! What the host owes, and the invariants. -/

/-- The host's duty of 70_reset_and_hazards.md R454: `L <= IBUF_CAP`, and every byte below `L` written. -/
abbrev BufferReady (s : State) : Prop := len s ≤ s.params.ibufCap ∧ Written s 0 (len s)

/-- The launch premises of 70_reset_and_hazards.md R455, with the FIFO holding `words`. -/
abbrev Launch (s : State) (words : List Word) : Prop :=
  s.phase = .idle ∧ s.done = false ∧ s.fifo = words ∧ BufferReady s

/-- What there is to see of a command at its end (70_reset_and_hazards.md R473). -/
structure Observation where
  code : Code
  off : Word
  steps : Word
  recCount : Word
  truncCount : Word
  invalidCount : Word
  incompleteCount : Word
  oggSeq : Word
  oggMissing : Word
  res : Results
  /-- The words of the records it pushed, in order, whether or not the host has popped them. -/
  records : List Word
  deriving DecidableEq, Repr

/-- R473's observation of a state in which a command has ended, given the words the command pushed. -/
def observation (s : State) (records : List Word) : Observation where
  code := s.code
  off := s.off
  steps := s.steps
  recCount := s.recCount
  truncCount := s.truncCount
  invalidCount := s.invalidCount
  incompleteCount := s.incompleteCount
  oggSeq := oggSeqWord s
  oggMissing := oggMissingWord s
  res := s.res
  records := records

/-- The FIFO words that the move from `s` to `t` added: none where it popped a word or emptied the FIFO. -/
def wordsPushed (s t : State) : List Word := t.fifo.drop s.fifo.length

/-- A command has ended in `s`: its `finish` has set phase IDLE and DONE 1 (R473). A soft reset leaves DONE 0. -/
abbrev CommandEnded (s : State) : Prop := s.phase = .idle ∧ s.done = true

/-- R473's observation of the command accepted in `s`, with the words it pushes collected over at most `k` moves, the
host's own among them; none where those moves do not take it to its `finish`. -/
def observe : Nat → State → Option Observation
  | 0, s => if CommandEnded s then some (observation s []) else none
  | k + 1, s =>
    match s.phase with
    | .idle => if CommandEnded s then some (observation s []) else none
    | .busy =>
      match step s with
      | .next t => (observe k t).map fun o => { o with records := wordsPushed s t ++ o.records }
      | .fault _ => none
      | .refused _ => none

/-- A host program's run has ended: no operation is left and the engine is IDLE (70_reset_and_hazards.md R473). -/
abbrev RunEnded (s : State) : Prop := s.script = [] ∧ s.phase = .idle

/-- The hang of 93_implementation_defined.md U11: the engine is held for FIFO space and the host moves no more. -/
abbrev Hung (s : State) : Prop := stallBit s = true ∧ s.script = []

/-- The parameters are in R7's ranges, the input buffer is in its canonical form inside IBUF, and the FIFO holds at
most OUT_DEPTH words (00_scope.md R7, 20_memory.md R70, 10_state.md R46). -/
def StorageInv (s : State) : Prop :=
  s.params.wellFormed = true ∧ Memory.wf s.ibuf = true ∧ Memory.below s.ibuf s.params.ibufCap = true ∧
    s.fifo.length ≤ s.params.outDepth

/-- While BUSY the engine runs the legal command that CMD holds, whose RANGE check passed, DONE and CODE are as
acceptance left them and no result is written (40_engine.md R151, R154; 70_reset_and_hazards.md R458). -/
def LifecycleInv (s : State) : Prop :=
  s.phase = .busy →
    (∃ i, s.cmd = encode i ∧ runningCommand s = some i ∧ (readsBuf i = true → len s ≤ s.params.ibufCap)) ∧
      s.done = false ∧ s.code = .ok ∧ s.res = .zero

/-- OGG_SEQ and OGG_MISSING: OGG_MISSING is 0 while MISSING_VALID is 0, MISSING_VALID comes only after a page, and
OGG_SEQ is 0 unless CMD holds OGG_SCAN (10_state.md R35, R36). -/
def SequenceInv (s : State) : Prop :=
  (s.missingValid = false → s.oggMissing = 0) ∧ (s.missingValid = true → s.havePage = true) ∧
    ((s.monoOk || s.missingValid || s.havePage) = true → s.cmd = encode .oggScan)

/-- While a scan or search is BUSY, STEPS and the counters are bounded by the offsets walked, and so by `L`, and OFF
stays below `max(ARG0, L + 65307)`; a one-shot that is BUSY has taken no step (70_reset_and_hazards.md R472,
10_state.md R24, R47). -/
def ProgressInv (s : State) : Prop :=
  s.phase = .busy →
    (∀ i, runningCommand s = some i → isWalk i = false → s.steps = 0 ∧ s.off = s.arg0 ∧ s.recCount = 0) ∧
    (∀ i, runningCommand s = some i → isWalk i = true →
      s.arg0.toNat + s.steps.toNat ≤ s.off.toNat ∧
      (s.steps = 0 ∨ s.arg0.toNat + s.steps.toNat ≤ len s) ∧
      (s.off = s.arg0 ∨ s.off.toNat < len s + 65307) ∧
      s.recCount.toNat + s.truncCount.toNat ≤ s.steps.toNat ∧
      s.invalidCount.toNat ≤ s.steps.toNat ∧
      s.incompleteCount.toNat ≤ s.recCount.toNat)

/-- Two states look alike to the running command: the same parameters, buffer below `L`, operands and per-command
state (40_engine.md R166). The FIFO, the host's own bits and the reply list may differ. -/
def SameToCommand (s t : State) : Prop :=
  s.params = t.params ∧ s.bufLen = t.bufLen ∧ s.arg0 = t.arg0 ∧ s.arg1 = t.arg1 ∧
    (∀ a < len s, byteAt s.ibuf a = byteAt t.ibuf a) ∧
    s.phase = t.phase ∧ s.op = t.op ∧ s.done = t.done ∧ s.code = t.code ∧ s.cmd = t.cmd ∧ s.off = t.off ∧ s.steps = t.steps ∧
    s.recCount = t.recCount ∧ s.truncCount = t.truncCount ∧ s.invalidCount = t.invalidCount ∧
    s.incompleteCount = t.incompleteCount ∧ s.monoOk = t.monoOk ∧ s.missingValid = t.missingValid ∧
    s.havePage = t.havePage ∧ s.oggMissing = t.oggMissing ∧ s.res = t.res ∧ s.havePrev = t.havePrev ∧
    s.prevEnd = t.prevEnd ∧ s.prevPn = t.prevPn

/-- An outcome with another input buffer in its next state. -/
def withIbuf (m : Memory) : Host.Outcome State Fault Refusal → Host.Outcome State Fault Refusal
  | .next t => .next { t with ibuf := m }
  | .fault f => .fault f
  | .refused r => .refused r

end Sys2Proof.Claims
end

