-- ==== Sys2Proof/Certificates/Slice0/Obligations.lean ====
section
/-! DEFINITION. What is claimed of the model, from the spec's numbered rules. Each statement's docstring names the
rule it formalises. -/

open Sys2Proof Sys2Proof.Machine Sys2Proof.Claims

/-! Encoding. -/

/-- 30_encoding.md R100, R101: five words written out bit by bit (RSVD 24 zeros, then OPC) decode to the command
they stand for, one per family. -/
def Obligations.SampleWordsDecode : Prop :=
  decode 0b00000000000000000000000000000001#32 = .command .fifoClear ∧
  decode 0b00000000000000000000000000001001#32 = .command .extractBuf ∧
  decode 0b00000000000000000000000000010010#32 = .command .adtsScan ∧
  decode 0b00000000000000000000000000100101#32 = .command .lameWindow ∧
  decode 0b00000000000000000000000000110001#32 = .command .oggDecode ∧
  decode 0b00000000000000000000000001000010#32 = .command .tocDecode

/-- 30_encoding.md R101: a word decodes to a command exactly when it is that command's word. In particular decode
of encode i is i for every command, and no other word decodes to it. -/
def Obligations.DecodeEncodeAgree : Prop :=
  ∀ (w : Word) (i : Instr), decode w = .command i ↔ w = encode i

/-- 30_encoding.md R102: the illegal words are exactly those whose OPC is not one of the 19 values or whose RSVD is
not 0. -/
def Obligations.IllegalWordsAreExactly : Prop :=
  ∀ w : Word, (∃ why, decode w = .illegal why) ↔
    (w.toNat / 2 ^ 8 ≠ 0 ∨
      w.toNat % 2 ^ 8 ∉ [0x00, 0x01, 0x08, 0x09, 0x10, 0x11, 0x12, 0x20, 0x21, 0x22, 0x23, 0x24, 0x25,
        0x30, 0x31, 0x32, 0x40, 0x41, 0x42])

/-! The host's moves. -/

/-- 70_reset_and_hazards.md R450, R452: the reset input, in any state, leaves every register reading 0, IRQ 0, the
engine IDLE, the hidden state 0, the FIFO empty, and IBUF as it was. -/
def Obligations.ResetClearsAllButIbuf : Prop :=
  ∀ s : State, ∃ t, takeMove .reset s = .next t ∧ (∀ r : Reg, regValue r t = 0) ∧ t.irq = false ∧
    t.phase = .idle ∧ t.op = 0 ∧ t.fifo = [] ∧ t.havePrev = false ∧ t.prevEnd = 0 ∧ t.prevPn = 0 ∧
    t.ibuf = s.ibuf ∧ t.params = s.params

/-- 70_reset_and_hazards.md R453, 10_state.md R22: a CTRL write with bit 1 set, in either phase, does what the reset
input does, whatever its bit 0; with bit 1 clear it writes IE and nothing else. -/
def Obligations.CtrlWriteResetsOrSetsIe : Prop :=
  ∀ (s : State) (v : Word),
    takeMove (.regWrite 0x00 32 v) s =
      if v.toNat / 2 % 2 = 1 then takeMove .reset s else .next { s with ie := decide (v.toNat % 2 = 1) }

/-- 40_engine.md R151: a legal command word written while IDLE, whose RANGE check passes, performs the acceptance
actions and starts the engine. -/
def Obligations.LegalCommandIsAccepted : Prop :=
  ∀ (s : State) (i : Instr), s.phase = .idle → ¬ (readsBuf i = true ∧ s.params.ibufCap < len s) →
    takeMove (.regWrite 0x08 32 (encode i)) s =
      .next { latched s (encode i) with op := BitVec.ofNat 8 ((encode i).toNat % 2 ^ 8), phase := .busy }

/-- 40_engine.md R153: an illegal command word written while IDLE performs the acceptance actions and ends with
ILLEGAL at once; BUF_LEN plays no part, so ILLEGAL comes before RANGE (60_exceptions.md R406). -/
def Obligations.IllegalCommandEndsAtOnce : Prop :=
  ∀ (s : State) (w : Word), s.phase = .idle → wordWellFormed w = false →
    takeMove (.regWrite 0x08 32 w) s = .next (finished .illegal (latched s w))

/-- 40_engine.md R154: a legal command that reads IBUF, written while IDLE with BUF_LEN above IBUF_CAP, performs the
acceptance actions and ends with RANGE at once. The commands that read IBUF are all but NOP, FIFO_CLEAR, EXTRACT and
TOC_DECODE. -/
def Obligations.LongBufferEndsInRange : Prop :=
  (∀ (s : State) (i : Instr), s.phase = .idle → readsBuf i = true → s.params.ibufCap < len s →
    takeMove (.regWrite 0x08 32 (encode i)) s = .next (finished .range (latched s (encode i)))) ∧
  ∀ i : Instr, readsBuf i = false ↔ i = .nop ∨ i = .fifoClear ∨ i = .extract ∨ i = .tocDecode

/-- 40_engine.md R152: a CMD write while BUSY sets REJECT and changes nothing else. -/
def Obligations.BusyCommandIsRejected : Prop :=
  ∀ (s : State) (w : Word), s.phase = .busy → takeMove (.regWrite 0x08 32 w) s = .next { s with reject := true }

/-- 70_reset_and_hazards.md R456, 10_state.md R20: BUF_LEN, ARG0 and ARG1 take a written value while IDLE and ignore
it while BUSY. -/
def Obligations.OperandWritesOnlyWhileIdle : Prop :=
  ∀ (s : State) (v : Word),
    takeMove (.regWrite 0x0C 32 v) s = .next (if s.phase = .idle then { s with bufLen := v } else s) ∧
    takeMove (.regWrite 0x10 32 v) s = .next (if s.phase = .idle then { s with arg0 := v } else s) ∧
    takeMove (.regWrite 0x14 32 v) s = .next (if s.phase = .idle then { s with arg1 := v } else s)

/-- 10_state.md R38: an OUT_DATA read returns and removes the oldest word; with the FIFO empty it returns 0 and sets
UNDERFLOW; a write to OUT_DATA is ignored. (What a read returns is the new last entry of the model's own reply list,
log entry 3.) -/
def Obligations.OutDataReadPops : Prop :=
  ∀ s : State,
    (∀ w rest, s.fifo = w :: rest →
      takeMove (.regRead 0x3C 32) s = .next { s with fifo := rest, replies := s.replies ++ [.word w] }) ∧
    (s.fifo = [] →
      takeMove (.regRead 0x3C 32) s = .next { s with underflow := true, replies := s.replies ++ [.word 0] }) ∧
    ∀ v, takeMove (.regWrite 0x3C 32 v) s = .next s

/-- 10_state.md R23: a STATUS write clears DONE, REJECT and UNDERFLOW where bits 1, 2 and 3 are written as 1, leaves
them where they are written as 0, and changes nothing else. -/
def Obligations.StatusWriteClearsOnes : Prop :=
  ∀ (s : State) (v : Word),
    takeMove (.regWrite 0x04 32 v) s =
      .next { s with
        done := if v.toNat / 2 % 2 = 1 then false else s.done
        reject := if v.toNat / 4 % 2 = 1 then false else s.reject
        underflow := if v.toNat / 8 % 2 = 1 then false else s.underflow }

/-- 10_state.md R23: every field of STATUS stands at its bits: BUSY 0, DONE 1, REJECT 2, UNDERFLOW 3, CODE 7:4 with
the values of 60_exceptions.md R401, STALL 8, OUT_NE 9, and 0 above. -/
def Obligations.StatusFieldsStandAtTheirBits : Prop :=
  ∀ s : State, (regValue .status s).toNat =
    flag (s.phase = .busy) + flag (s.done = true) * 2 + flag (s.reject = true) * 4 + flag (s.underflow = true) * 8
      + (match s.code with | .ok => 0 | .notFound => 1 | .truncated => 2 | .illegal => 3 | .range => 4) * 16
      + flag (stallBit s = true) * 2 ^ 8 + flag (s.fifo ≠ []) * 2 ^ 9

/-- 10_state.md R39: IRQ is the AND of the IE bit that CTRL reads and the DONE bit that STATUS reads, and 0 after
reset. -/
def Obligations.IrqIsEnableAndDone : Prop :=
  (∀ s : State, s.irq = true ↔ (regValue .ctrl s).toNat % 2 = 1 ∧ (regValue .status s).toNat / 2 % 2 = 1) ∧
    State.reset.irq = false

/-- 10_state.md R21: an access that is not one aligned 32-bit word is refused; a reserved slot reads 0 and ignores a
write; every other read but OUT_DATA's (offset 0x3C) leaves the whole state but the reply list as it was. (The reply
list is the model's own, log entry 3.) 10_state.md R20, R48: a write to a read-only register, or to OUT_DATA, is
ignored: they stand at the offsets 0x18 to 0x5C. -/
def Obligations.RegisterAccessRules : Prop :=
  ∀ (s : State) (offset : BitVec 8) (bits : Nat) (v : Word),
    (offset.toNat % 4 ≠ 0 ∨ bits ≠ 32 →
      takeMove (.regRead offset bits) s = .refused (.notAnAlignedWord offset bits) ∧
      takeMove (.regWrite offset bits v) s = .refused (.notAnAlignedWord offset bits)) ∧
    (offset.toNat % 4 = 0 → 0x60 ≤ offset.toNat →
      takeMove (.regRead offset 32) s = .next { s with replies := s.replies ++ [.word 0] } ∧
      takeMove (.regWrite offset 32 v) s = .next s) ∧
    (offset.toNat % 4 = 0 → 0x18 ≤ offset.toNat → offset.toNat ≤ 0x5C →
      takeMove (.regWrite offset 32 v) s = .next s) ∧
    (offset.toNat % 4 = 0 → offset.toNat < 0x60 → offset.toNat ≠ 0x3C →
      ∃ w, takeMove (.regRead offset 32) s = .next { s with replies := s.replies ++ [.word w] })

/-- 10_state.md R20, R22 to R37: what each register but OUT_DATA reads as, at its offset. CTRL (0x00) reads IE in bit 0
and 0 above; STATUS (0x04) the word whose fields StatusFieldsStandAtTheirBits gives; the others the value last
stored; OUT_LEVEL (0x38) the number of words in the FIFO; OGG_SEQ (0x30) its three bits; OGG_MISSING (0x34) 0 while
MISSING_VALID is 0. (What a read returns is the new last entry of the model's own reply list, log entry 3. OUT_LEVEL reads the number
of words modulo 2^32, which is the model's reading for an OUT_DEPTH of 2^32 or more, log entry 5.) -/
def Obligations.RegisterReadsReturn : Prop :=
  ∀ (s : State) (offset : BitVec 8) (w : Word),
    (offset, w) ∈ [(0x00, BitVec.ofNat 32 (flag (s.ie = true))), (0x04, regValue .status s), (0x08, s.cmd),
      (0x0C, s.bufLen), (0x10, s.arg0), (0x14, s.arg1), (0x18, s.off), (0x1C, s.steps),
      (0x20, s.recCount), (0x24, s.truncCount), (0x28, s.invalidCount), (0x2C, s.incompleteCount),
      (0x30, BitVec.ofNat 32 (flag (s.monoOk = true) + flag (s.missingValid = true) * 2 + flag (s.havePage = true) * 4)),
      (0x34, if s.missingValid then s.oggMissing else 0), (0x38, BitVec.ofNat 32 s.fifo.length),
      (0x40, s.res.r0), (0x44, s.res.r1), (0x48, s.res.r2), (0x4C, s.res.r3),
      (0x50, s.res.r4), (0x54, s.res.r5), (0x58, s.res.r6), (0x5C, s.res.r7)] →
    takeMove (.regRead offset 32) s = .next { s with replies := s.replies ++ [.word w] }

/-- 20_memory.md R71, R81: an IBUF port write inside IBUF, not below `L` while BUSY, sets that byte and no other
byte and nothing else; below `L` while BUSY, and outside IBUF, it is refused. 93_implementation_defined.md U1: a port
read returns the byte written there and changes nothing else; it faults on a byte never written (log entry 7); outside
IBUF it is refused. (What a read returns is the new last entry of the model's own reply list, log entry 3.) -/
def Obligations.IbufPortMovesOneByte : Prop :=
  ∀ (s : State) (a : Nat) (v : Byte),
    (a < s.params.ibufCap → ¬ (s.phase = .busy ∧ a < len s) →
      ∃ m, takeMove (.ibufWrite a v) s = .next { s with ibuf := m } ∧ byteAt m a = some v ∧
        ∀ x, x ≠ a → byteAt m x = byteAt s.ibuf x) ∧
    (a < s.params.ibufCap → s.phase = .busy → a < len s →
      takeMove (.ibufWrite a v) s = .refused (.ibufWriteWhileBusy a)) ∧
    (s.params.ibufCap ≤ a → takeMove (.ibufWrite a v) s = .refused (.outsideIbuf a)) ∧
    (a < s.params.ibufCap → byteAt s.ibuf a = some v →
      takeMove (.ibufRead a) s = .next { s with replies := s.replies ++ [.byte v] }) ∧
    (a < s.params.ibufCap → byteAt s.ibuf a = none → takeMove (.ibufRead a) s = .fault (.unwrittenByte a)) ∧
    (s.params.ibufCap ≤ a → takeMove (.ibufRead a) s = .refused (.outsideIbuf a))

/-- 30_encoding.md R106: a command line with extractor fields expands to the writes of ARG0, ARG1 and CMD and then to
`wait_done`'s reads of STATUS and the write that clears DONE; W, S and N - 1 stand in ARG1 at bits 5:0, 13:8 and 17:16,
every other bit 0. (How many reads there are depends on the interleaving; the model takes it as an argument, log entry
11, and the statement holds for every number.) -/
def Obligations.ExtractorLineExpands : Prop :=
  ∀ (i : Instr) (a0 : Word) (f : ExtractFields) (polls : Nat),
    lineMoves (.command i a0 (some f) polls) =
      [.regWrite 0x10 32 a0,
       .regWrite 0x14 32 (BitVec.ofNat 32 (f.w.toNat + f.s.toNat * 2 ^ 8 + f.nb.toNat * 2 ^ 16)),
       .regWrite 0x08 32 (encode i)] ++ List.replicate polls (.regRead 0x04 32) ++ [.regWrite 0x04 32 0x00000002]

/-! Steps. -/

/-- 20_memory.md R80, 40_engine.md R150, R155, 60_exceptions.md R416: at the engine's turn, whether the script says so
or is empty, a BUSY engine whose `op` is a command's opcode takes that command's step, and an IDLE engine changes
nothing but the script; a host move at the head of the script is the step where it stands there. (The script is the
model's own field, log entry 2.) -/
def Obligations.StepRunsTheDecodedCommand : Prop :=
  (∀ (s : State) (i : Instr), s.phase = .busy → decode (BitVec.setWidth 32 s.op) = .command i →
    (s.script = [] → step s = exec i s) ∧
    ∀ rest, s.script = .engine :: rest → step s = exec i { s with script := rest }) ∧
  ∀ (s : State) (m : Move) (rest : List Move),
    (s.script = m :: rest → step s = takeMove m { s with script := rest }) ∧
    (s.phase = .idle → s.script = [] → step s = .next s) ∧
    (s.phase = .idle → s.script = .engine :: rest → step s = .next { s with script := rest })

/-- 10_state.md R23, 40_engine.md R160: with a command running and only the engine left to move (the model's empty
script, log entry 2), STALL reads 1 exactly when the step leaves the whole state as it is. -/
def Obligations.StallExactlyWhenHeld : Prop :=
  ∀ (s : State) (i : Instr), s.phase = .busy → runningCommand s = some i → s.script = [] →
    ((regValue .status s).toNat / 2 ^ 8 % 2 = 1 ↔ step s = .next s)

/-- 40_engine.md R155, 70_reset_and_hazards.md R454, R472: for every command, in a state where the host has kept its
duty and the FIFO has room for the largest record, the engine step answers a next state and takes effect: a one-shot
is finished by it; a scan or search is finished or has STEPS one more. 20_memory.md R71, R72,
93_implementation_defined.md U1: in every state a command reads bytes below `L` only, its step stops exactly where one
of them was never written, with the fault that names the first such byte (which bytes a rule reads, and in what order,
is the model's reading, log entry 6), and it is never refused. -/
def Obligations.EveryCommandStepCompletes : Prop :=
  (∀ (s : State) (i : Instr), BufferReady s → Room s 73 →
    ∃ t, exec i s = .next t ∧
      (isWalk i = false → t.phase = .idle ∧ t.done = true ∧ t.steps = s.steps) ∧
      (isWalk i = true → (t.phase = .idle ∧ t.done = true) ∨ (t.phase = s.phase ∧ t.steps = s.steps + 1))) ∧
  (∀ (s : State) (i : Instr), ∀ a ∈ bytesRead i s, a < len s) ∧
  (∀ (s : State) (i : Instr) (a : Nat), exec i s = .fault (.unwrittenByte a) ↔ firstUnwritten i s = some a) ∧
  ∀ (s : State) (i : Instr) (r : Refusal), exec i s ≠ .refused r

/-- 10_state.md R48, 00_scope.md R11, 40_engine.md R151 (and R165 for UNDERFLOW): no command changes IBUF, the
operands, BUF_LEN, CMD, CTRL, the host's sticky bits, `op` or the parameters, and none touches the model's own script
and replies. 40_engine.md R150, 44_ogg.md R319, 10_state.md R35: no command but OGG_SCAN touches OGG_SEQ, OGG_MISSING or
prev_pn, and no one-shot touches OFF, STEPS, TRUNC_COUNT, INCOMPLETE_COUNT, have_prev or prev_end. -/
def Obligations.CommandsLeaveOtherStateAlone : Prop :=
  ∀ (s t : State) (i : Instr), exec i s = .next t →
    t.ibuf = s.ibuf ∧ t.arg0 = s.arg0 ∧ t.arg1 = s.arg1 ∧ t.bufLen = s.bufLen ∧ t.cmd = s.cmd ∧ t.ie = s.ie ∧
    t.reject = s.reject ∧ t.underflow = s.underflow ∧ t.op = s.op ∧ t.params = s.params ∧
    t.script = s.script ∧ t.replies = s.replies ∧
    (i ≠ .oggScan → t.monoOk = s.monoOk ∧ t.missingValid = s.missingValid ∧ t.havePage = s.havePage ∧
      t.oggMissing = s.oggMissing ∧ t.prevPn = s.prevPn) ∧
    (isWalk i = false → t.off = s.off ∧ t.steps = s.steps ∧ t.truncCount = s.truncCount ∧
      t.incompleteCount = s.incompleteCount ∧ t.havePrev = s.havePrev ∧ t.prevEnd = s.prevEnd)

/-- 30_encoding.md R115, 10_state.md R46: an engine step changes the FIFO only by emptying it (FIFO_CLEAR) or by
appending one whole record of 2 to 73 words, within OUT_DEPTH, whose word 0 has a TYPE of 1 to 4, LEN the number of
words, and no flag bit that its type does not define. -/
def Obligations.StepsPushOneWholeRecord : Prop :=
  ∀ (s t : State) (i : Instr), exec i s = .next t →
    t.fifo = s.fifo ∨ (i = .fifoClear ∧ t.fifo = []) ∨
    ∃ w0 rest, t.fifo = s.fifo ++ w0 :: rest ∧ 1 ≤ rest.length ∧ rest.length ≤ 72 ∧
      t.fifo.length ≤ s.params.outDepth ∧ w0.toNat / 2 ^ 8 % 2 ^ 8 = rest.length + 1 ∧
      ((w0.toNat % 2 ^ 8 = 1 ∧ w0.toNat / 2 ^ 16 % 2 ^ 15 < 2 ^ 4) ∨
       (w0.toNat % 2 ^ 8 = 2 ∧ w0.toNat / 2 ^ 16 % 2 ^ 15 < 2 ^ 5) ∨
       (w0.toNat % 2 ^ 8 = 3 ∧ w0.toNat / 2 ^ 16 % 2 ^ 15 < 2 ^ 4) ∨
       (w0.toNat % 2 ^ 8 = 4 ∧ w0.toNat / 2 ^ 16 % 2 ^ 15 = 0))

/-- 40_engine.md R160: a record that does not fit holds the step: whichever command is about to push one leaves the
whole state as it is. -/
def Obligations.FullFifoHoldsTheStep : Prop :=
  ∀ s : State,
    (Written s s.arg0.toNat 9 → s.arg0.toNat + 19 ≤ len s → ¬ Room s 6 → exec .adtsDecode s = .next s) ∧
    (Written s s.off.toNat 9 → s.off.toNat + 19 ≤ len s → AdtsSync s s.off.toNat → ¬ Room s 6 →
      exec .adtsScan s = .next s) ∧
    (Written s s.arg0.toNat 4 → s.arg0.toNat + 4 ≤ len s → ¬ Room s 6 → exec .mp3Decode s = .next s) ∧
    (Written s s.off.toNat 4 → s.off.toNat + 4 ≤ len s → MpegSync s s.off.toNat → 0 < frameSize s s.off.toNat →
      ¬ Room s 6 → exec .mp3Scan s = .next s) ∧
    (∀ n, n = min (s.arg0.toNat + 177) (len s) - (s.arg0.toNat + 39) → 0 < n → Written s (s.arg0.toNat + 39) n →
      ¬ Room s (2 + (n + 3) / 4) → exec .lameWindow s = .next s) ∧
    (Written s s.arg0.toNat (27 + segments s s.arg0.toNat) → s.arg0.toNat + 27 + segments s s.arg0.toNat ≤ len s →
      ¬ Room s (9 + (segments s s.arg0.toNat + 3) / 4) → exec .oggDecode s = .next s) ∧
    (Written s s.off.toNat (27 + segments s s.off.toNat) → s.off.toNat + 27 + segments s s.off.toNat ≤ len s →
      OggMagic s s.off.toNat → ¬ Room s (9 + (segments s s.off.toNat + 3) / 4) → exec .oggScan s = .next s)

/-- 93_implementation_defined.md U11, 40_engine.md R160: an engine held for FIFO space, with no host move left (the
model's empty script, log entry 2), stays BUSY with STALL 1 for ever: no number of steps changes anything. -/
def Obligations.UndrainedFifoHangs : Prop :=
  ∀ (s : State) (k : Nat), Hung s →
    core.run k s = .next s ∧ s.phase = .busy ∧ (regValue .status s).toNat / 2 ^ 8 % 2 = 1

/-! The control commands and the extractor. -/

/-- 40_engine.md R164, R151: NOP's step is `finish(OK)` in every state; NOP written while IDLE and given the engine's
turn (two moves of the model's own script, log entry 2) leaves the acceptance actions and `finish(OK)`, whatever
BUF_LEN is, and nothing else. -/
def Obligations.NopRunsFromIdle : Prop :=
  (∀ s : State, exec .nop s = .next (finished .ok s)) ∧
  ∀ s : State, s.phase = .idle → s.script = [.regWrite 0x08 32 0x00000000, .engine] →
    core.run 2 s = .next (finished .ok { latched s 0x00000000 with op := 0, script := [] })

/-- 40_engine.md R165: FIFO_CLEAR empties the FIFO and ends OK, and changes nothing else; written while IDLE and
given the engine's turn (two moves of the model's own script, log entry 2) it does so after the acceptance actions, and
OUT_LEVEL then reads 0. -/
def Obligations.FifoClearEmptiesTheFifo : Prop :=
  (∀ s : State, exec .fifoClear s = .next (finished .ok { s with fifo := [] })) ∧
  ∀ s : State, s.phase = .idle → s.script = [.regWrite 0x08 32 0x00000001, .engine] →
    ∃ t, core.run 2 s = .next t ∧
      t = finished .ok { latched s 0x00000001 with op := 1, fifo := [], script := [] } ∧
      regValue .outLevel t = 0 ∧ t.underflow = s.underflow

/-- 41_bitfield.md R200: the extraction law and its bound; and what follows for widths and shifts out of range (R204):
with `v < 2^k`, `w + s > k` gives `v >> s` in fewer than `w` bits, `s >= k` gives 0, and `w = 0` gives 0. -/
def Obligations.ExtractionLaw : Prop :=
  (∀ v w s : Nat, extract v w s = v / 2 ^ s % 2 ^ w ∧ extract v w s < 2 ^ w) ∧
  ∀ v w s k : Nat, v < 2 ^ k →
    (k < w + s → extract v w s = v / 2 ^ s ∧ v / 2 ^ s < 2 ^ (w - 1)) ∧ (k ≤ s → extract v w s = 0) ∧ (w = 0 → extract v w s = 0)

/-- 41_bitfield.md R201, 30_encoding.md R104: EXTRACT writes RES0 from ARG0 with the width in ARG1[5:0] and the shift
in ARG1[13:8], ends OK, and changes nothing else. -/
def Obligations.ExtractWritesTheField : Prop :=
  ∀ s : State, exec .extract s = .next (finished .ok
    { s with res.r0 := BitVec.ofNat 32 (s.arg0.toNat / 2 ^ (s.arg1.toNat / 2 ^ 8 % 64) % 2 ^ (s.arg1.toNat % 64)) })

/-- 41_bitfield.md R202, 30_encoding.md R104: EXTRACT_BUF on `n = ARG1[17:16] + 1` written bytes inside the buffer
writes their big-endian assembly to RES1 and the field to RES0 and ends OK; a span past `L` ends TRUNCATED with both
0; nothing else changes. -/
def Obligations.ExtractBufWritesTheField : Prop :=
  ∀ (s : State) (n : Nat), n = s.arg1.toNat / 2 ^ 16 % 4 + 1 →
    (s.arg0.toNat + n ≤ len s → Written s s.arg0.toNat n →
      exec .extractBuf s = .next (finished .ok
        { s with
          res.r0 := BitVec.ofNat 32
            (beSum s s.arg0.toNat n / 2 ^ (s.arg1.toNat / 2 ^ 8 % 64) % 2 ^ (s.arg1.toNat % 64))
          res.r1 := BitVec.ofNat 32 (beSum s s.arg0.toNat n) })) ∧
    (len s < s.arg0.toNat + n → exec .extractBuf s = .next (finished .truncated { s with res.r0 := 0, res.r1 := 0 }))

/-! The synchronizers and the one-shot helpers. -/

/-- 42_adts.md R225, R220: ADTS_SYNC answers 1 exactly on 0xFF followed by 0xF0, 0xF1, 0xF8 or 0xF9. -/
def Obligations.AdtsSyncAcceptsFourPatterns : Prop :=
  ∀ s : State, s.arg0.toNat + 2 ≤ len s → Written s s.arg0.toNat 2 →
    exec .adtsSync s = .next (finished .ok { s with res.r0 := if AdtsSync s s.arg0.toNat then 1 else 0 })

/-- 43_mp3.md R267, R260: MP3_SYNC answers 1 exactly on 0xFF followed by a byte whose bits 7:5 are all 1. -/
def Obligations.Mp3SyncChecksElevenBits : Prop :=
  ∀ s : State, s.arg0.toNat + 2 ≤ len s → Written s s.arg0.toNat 2 →
    exec .mp3Sync s = .next (finished .ok { s with res.r0 := if MpegSync s s.arg0.toNat then 1 else 0 })

/-- 44_ogg.md R315, R310 and 45_opus.md R344: OGG_SYNC and OPUSTAGS_TEST answer 1 exactly on their magic. -/
def Obligations.MagicTestsCompareEveryByte : Prop :=
  (∀ s : State, s.arg0.toNat + 5 ≤ len s → Written s s.arg0.toNat 5 →
    exec .oggSync s = .next (finished .ok { s with res.r0 := if OggMagic s s.arg0.toNat then 1 else 0 })) ∧
  ∀ s : State, s.arg0.toNat + 8 ≤ len s → Written s s.arg0.toNat 8 →
    exec .opustagsTest s = .next (finished .ok { s with res.r0 := if OpusTags s s.arg0.toNat then 1 else 0 })

/-- 43_mp3.md R274: XING_DETECT compares the four bytes at +36: 1 for "Xing", 2 for "Info", 0 otherwise. -/
def Obligations.XingDetectReadsOffset36 : Prop :=
  ∀ s : State, s.arg0.toNat + 40 ≤ len s → Written s (s.arg0.toNat + 36) 4 →
    exec .xingDetect s = .next (finished .ok
      { s with
        res.r0 := if Matches s (s.arg0.toNat + 36) [0x58, 0x69, 0x6E, 0x67] then 1
          else if Matches s (s.arg0.toNat + 36) [0x49, 0x6E, 0x66, 0x6F] then 2 else 0 })

/-- 60_exceptions.md R401, R406 with 42_adts.md R225, R226, 43_mp3.md R267, R268, R274, 44_ogg.md R315, R316,
45_opus.md R344: a one-shot that needs bytes at or beyond `L` ends TRUNCATED with RES0 0 where it has a result, reads
nothing and pushes nothing. -/
def Obligations.ShortOneShotsAreTruncated : Prop :=
  ∀ s : State,
    (len s < s.arg0.toNat + 2 → exec .adtsSync s = .next (finished .truncated { s with res.r0 := 0 }) ∧
      exec .mp3Sync s = .next (finished .truncated { s with res.r0 := 0 })) ∧
    (len s < s.arg0.toNat + 5 → exec .oggSync s = .next (finished .truncated { s with res.r0 := 0 })) ∧
    (len s < s.arg0.toNat + 8 → exec .opustagsTest s = .next (finished .truncated { s with res.r0 := 0 })) ∧
    (len s < s.arg0.toNat + 40 → exec .xingDetect s = .next (finished .truncated { s with res.r0 := 0 })) ∧
    (len s < s.arg0.toNat + 19 → exec .adtsDecode s = .next (finished .truncated s)) ∧
    (len s < s.arg0.toNat + 4 → exec .mp3Decode s = .next (finished .truncated s)) ∧
    (len s < s.arg0.toNat + 27 → exec .oggDecode s = .next (finished .truncated s)) ∧
    (s.arg0.toNat + 27 ≤ len s → Written s (s.arg0.toNat + 26) 1 →
      len s < s.arg0.toNat + 27 + segments s s.arg0.toNat → exec .oggDecode s = .next (finished .truncated s))

/-- 43_mp3.md R275, 30_encoding.md R114: LAME_WINDOW reports the window `[f+39, f+177)` clipped at `L`: RES0 its
start, RES1 its byte count `n`, one type-4 record of its bytes where `n > 0`, OK where it is whole and TRUNCATED where
it is clipped. -/
def Obligations.LameWindowIsClipped : Prop :=
  ∀ (s : State) (a n : Nat), a = s.arg0.toNat + 39 → n = min (s.arg0.toNat + 177) (len s) - a →
    (0 < n → Written s a n → Room s (2 + (n + 3) / 4) →
      exec .lameWindow s = .next (finished (if len s < s.arg0.toNat + 177 then .truncated else .ok)
        { s with
          res.r0 := BitVec.ofNat 32 a
          res.r1 := BitVec.ofNat 32 n
          fifo := s.fifo ++ ([BitVec.ofNat 32 (0x04 + (2 + (n + 3) / 4) * 2 ^ 8), BitVec.ofNat 32 a] ++ packed s a n)
          recCount := s.recCount + 1 })) ∧
    (n = 0 → exec .lameWindow s = .next (finished .truncated
        { s with res.r0 := BitVec.ofNat 32 a, res.r1 := 0 }))

/-- 45_opus.md R346 to R351, 10_state.md R43: TOC_DECODE of ARG0[7:0] writes the TOC word to RES0 and the byte to
RES1, for every byte, and ends OK. -/
def Obligations.TocDecodeIsTotal : Prop :=
  ∀ s : State, exec .tocDecode s = .next (finished .ok
    { s with
      res.r0 := BitVec.ofNat 32 (tocSum (s.arg0.toNat % 2 ^ 8))
      res.r1 := BitVec.ofNat 32 (s.arg0.toNat % 2 ^ 8) })

/-! The decoders. -/

/-- 42_adts.md R221 to R226, 30_encoding.md R111: ADTS_DECODE with 19 bytes left pushes the six words of the header at
ARG0, with no sync test, counts it, and ends OK. -/
def Obligations.AdtsDecodePushesTheHeader : Prop :=
  ∀ s : State, s.arg0.toNat + 19 ≤ len s → Written s s.arg0.toNat 9 → Room s 6 →
    exec .adtsDecode s =
      .next (decoded s (adtsWords s s.arg0.toNat false) (decide (AdtsBad s s.arg0.toNat)))

/-- 43_mp3.md R261 to R268, 30_encoding.md R112: MP3_DECODE with 4 bytes left pushes the six words of the header at
ARG0, with no sync test, counts it, and ends OK. -/
def Obligations.Mp3DecodePushesTheHeader : Prop :=
  ∀ s : State, s.arg0.toNat + 4 ≤ len s → Written s s.arg0.toNat 4 → Room s 6 →
    exec .mp3Decode s =
      .next (decoded s (mpegWords s s.arg0.toNat false) (decide (MpegBad s s.arg0.toNat)))

/-- 44_ogg.md R311 to R316, 30_encoding.md R113: OGG_DECODE of a page whose fixed part and segment table lie below
`L` pushes its record, with no magic test, counts it, and ends OK. -/
def Obligations.OggDecodePushesThePage : Prop :=
  ∀ s : State, s.arg0.toNat + 27 + segments s s.arg0.toNat ≤ len s →
    Written s s.arg0.toNat (27 + segments s s.arg0.toNat) → Room s (9 + (segments s s.arg0.toNat + 3) / 4) →
    exec .oggDecode s =
      .next (decoded s (oggWords s s.arg0.toNat false) (decide (len s < s.arg0.toNat + pageSize s s.arg0.toNat)))

/-- 43_mp3.md R265: over all headers a frame size is 0 or 1 to 8055, and it is positive exactly when bitrate and
sample rate are, that is when no field is invalid and the bitrate index is not 0. -/
def Obligations.MpegFrameSizeRange : Prop :=
  ∀ h : MpegHeader, mpegFrameSize h ≤ 8055 ∧
    (0 < mpegFrameSize h ↔ 0 < mpegBitrate h ∧ 0 < mpegRate h) ∧
    (0 < mpegFrameSize h ↔ mpegInvalid h = false ∧ h.bitrateIndex ≠ 0)

/-! The scans and searches. -/

/-- 40_engine.md R155, R158, R159 with the loop conditions of 42_adts.md R227, 43_mp3.md R269, R273, 44_ogg.md R317,
45_opus.md R342: where its loop condition fails a scan ends OK or NOT_FOUND by REC_COUNT, and a search ends NOT_FOUND
with its not-found results. -/
def Obligations.WalksEndPastTheBuffer : Prop :=
  ∀ s : State,
    (len s ≤ s.off.toNat + 7 →
      exec .adtsScan s = .next (finished (if s.recCount = 0 then .notFound else .ok) s)) ∧
    (len s < s.off.toNat + 4 →
      exec .mp3Scan s = .next (finished (if s.recCount = 0 then .notFound else .ok) s)) ∧
    (len s < s.off.toNat + 5 →
      exec .oggScan s = .next (finished (if s.recCount = 0 then .notFound else .ok) s)) ∧
    (len s < s.off.toNat + 10 →
      exec .id3Find s = .next (finished .notFound { s with res.r0 := 0xFFFFFFFF, res.r1 := 0xFFFFFFFF })) ∧
    (len s < s.off.toNat + 8 →
      exec .opusheadFind s = .next (finished .notFound { s with res.r0 := 0, res.r1 := 0xFFFFFFFF }))

/-- 40_engine.md R157, R159: where its pattern does not match, every scan and search counts the step and moves OFF one
on, and changes nothing else. -/
def Obligations.WalksStepOverNonMatches : Prop :=
  ∀ s : State,
    (s.off.toNat + 7 < len s → Written s s.off.toNat 2 → ¬ AdtsSync s s.off.toNat →
      exec .adtsScan s = .next { s with steps := s.steps + 1, off := s.off + 1 }) ∧
    (s.off.toNat + 4 ≤ len s → Written s s.off.toNat 2 → ¬ MpegSync s s.off.toNat →
      exec .mp3Scan s = .next { s with steps := s.steps + 1, off := s.off + 1 }) ∧
    (s.off.toNat + 5 ≤ len s → Written s s.off.toNat 5 → ¬ OggMagic s s.off.toNat →
      exec .oggScan s = .next { s with steps := s.steps + 1, off := s.off + 1 }) ∧
    (s.off.toNat + 10 ≤ len s → Written s s.off.toNat 10 → ¬ Id3Header s s.off.toNat →
      exec .id3Find s = .next { s with steps := s.steps + 1, off := s.off + 1 }) ∧
    (s.off.toNat + 8 ≤ len s → Written s s.off.toNat 8 → ¬ OpusHead s s.off.toNat →
      exec .opusheadFind s = .next { s with steps := s.steps + 1, off := s.off + 1 })

/-- 42_adts.md R227, R229, 44_ogg.md R317, 45_opus.md R342: a match with too few bytes left is counted in TRUNC_COUNT
and stepped over. 43_mp3.md R269: an MP3 match whose frame size is 0 is counted in INVALID_COUNT, not pushed, and
stepped over. -/
def Obligations.WalksCountBadCandidates : Prop :=
  ∀ s : State,
    (s.off.toNat + 7 < len s → len s < s.off.toNat + 19 → Written s s.off.toNat 2 → AdtsSync s s.off.toNat →
      exec .adtsScan s =
        .next { s with steps := s.steps + 1, off := s.off + 1, truncCount := s.truncCount + 1 }) ∧
    (s.off.toNat + 5 ≤ len s → len s < s.off.toNat + 27 → Written s s.off.toNat 5 → OggMagic s s.off.toNat →
      exec .oggScan s =
        .next { s with steps := s.steps + 1, off := s.off + 1, truncCount := s.truncCount + 1 }) ∧
    (s.off.toNat + 27 ≤ len s → len s < s.off.toNat + 27 + segments s s.off.toNat → Written s s.off.toNat 27 →
      OggMagic s s.off.toNat →
      exec .oggScan s =
        .next { s with steps := s.steps + 1, off := s.off + 1, truncCount := s.truncCount + 1 }) ∧
    (s.off.toNat + 8 ≤ len s → len s < s.off.toNat + 19 → Written s s.off.toNat 8 → OpusHead s s.off.toNat →
      exec .opusheadFind s =
        .next { s with steps := s.steps + 1, off := s.off + 1, truncCount := s.truncCount + 1 }) ∧
    (s.off.toNat + 4 ≤ len s → Written s s.off.toNat 4 → MpegSync s s.off.toNat → frameSize s s.off.toNat = 0 →
      exec .mp3Scan s =
        .next { s with steps := s.steps + 1, off := s.off + 1, invalidCount := s.invalidCount + 1 })

/-- 42_adts.md R227, R228: ADTS_SCAN at a sync with 19 bytes left pushes the header with its INCOMPLETE bit, counts and
chains it, and advances by its frame size, or by 1 where that is 0. -/
def Obligations.AdtsScanPushesAndAdvances : Prop :=
  ∀ s : State, s.off.toNat + 19 ≤ len s → Written s s.off.toNat 9 → AdtsSync s s.off.toNat → Room s 6 →
    exec .adtsScan s = .next (scanned s (adtsWords s s.off.toNat (isIncomplete s)) (decide (AdtsBad s s.off.toNat))
      (adtsFrameSize s s.off.toNat)
      (if adtsFrameSize s s.off.toNat = 0 then 1 else adtsFrameSize s s.off.toNat))

/-- 43_mp3.md R269: MP3_SCAN at a sync with a positive frame size pushes the header, counts and chains it, and advances
by the frame size; such a record has no invalid flag. -/
def Obligations.Mp3ScanPushesAndAdvances : Prop :=
  ∀ s : State, s.off.toNat + 4 ≤ len s → Written s s.off.toNat 4 → MpegSync s s.off.toNat →
    0 < frameSize s s.off.toNat → Room s 6 →
    exec .mp3Scan s = .next (scanned s (mpegWords s s.off.toNat (isIncomplete s)) false
      (frameSize s s.off.toNat) (frameSize s s.off.toNat))

/-- 44_ogg.md R317 to R319: OGG_SCAN at a page pushes its record, counts and chains it, checks the page number against
the last one, and advances by the page size less OGG_ADV_ADJ. MONO_OK falls when the number is not greater; the first
number that is not the next one sets MISSING_VALID and OGG_MISSING. -/
def Obligations.OggScanPushesChecksAndAdvances : Prop :=
  ∀ (s : State) (broken : Bool), s.params.oggAdvAdj ≤ 1 → s.off.toNat + 27 + segments s s.off.toNat ≤ len s →
    Written s s.off.toNat (27 + segments s s.off.toNat) → OggMagic s s.off.toNat →
    Room s (9 + (segments s s.off.toNat + 3) / 4) →
    broken = decide (s.havePage = true ∧ s.missingValid = false ∧
      pageNum s s.off.toNat ≠ (s.prevPn.toNat + 1) % 2 ^ 32) →
    exec .oggScan s = .next
      { scanned s (oggWords s s.off.toNat (isIncomplete s)) (decide (len s < s.off.toNat + pageSize s s.off.toNat))
          (pageSize s s.off.toNat) (pageSize s s.off.toNat - s.params.oggAdvAdj) with
        monoOk := if s.havePage = true ∧ pageNum s s.off.toNat ≤ s.prevPn.toNat then false else s.monoOk
        missingValid := if broken then true else s.missingValid
        oggMissing := if broken then s.prevPn + 1 else s.oggMissing
        havePage := true
        prevPn := BitVec.ofNat 32 (pageNum s s.off.toNat) }

/-- 43_mp3.md R270 to R273: ID3_FIND at a tag header ends OK with RES0 its offset, RES1 the tag size, RES2 the flags
byte, the two version bytes, the footer bit and BEYOND_END, RES3 the body size; OFF stays. -/
def Obligations.Id3FindReportsTheTag : Prop :=
  ∀ (s : State) (a : Nat), a = s.off.toNat → a + 10 ≤ len s → Written s a 10 → Id3Header s a →
    exec .id3Find s = .next (finished .ok
      { s with
        steps := s.steps + 1
        res.r0 := s.off
        res.r1 := BitVec.ofNat 32 (tagSize s a)
        res.r2 := BitVec.ofNat 32 (ibuf s (a + 5) + ibuf s (a + 3) * 2 ^ 8 + ibuf s (a + 4) * 2 ^ 16
          + ibuf s (a + 5) / 16 % 2 * 2 ^ 24 + flag (len s < a + tagSize s a) * 2 ^ 25)
        res.r3 := BitVec.ofNat 32 (unsyncSum s (a + 6)) })

/-- 45_opus.md R340 to R343: OPUSHEAD_FIND at a magic with 19 bytes left ends OK with RES0 1, RES1 the offset, RES2
version, channels and mapping family, RES3 preSkip, RES4 the sample rate, RES5 the gain sign-extended, and in RES6 and
RES7 the TOC word and byte at OPUS_TOC_OFFSET where that is a byte of the buffer, else 0; OFF stays. -/
def Obligations.OpusHeadFindReportsTheHeader : Prop :=
  ∀ (s : State) (a gain : Nat) (toc : Option Nat), a = s.off.toNat → a + 19 ≤ len s → Written s a 19 → OpusHead s a →
    gain = leSum s (a + 16) 2 →
    toc = (s.params.opusTocOffset.filter fun d => decide (a + d < len s)).map (fun d => a + d) →
    (∀ x, toc = some x → Written s x 1) →
    exec .opusheadFind s = .next (finished .ok
      { s with
        steps := s.steps + 1
        res.r0 := 1
        res.r1 := s.off
        res.r2 := BitVec.ofNat 32 (ibuf s (a + 8) + ibuf s (a + 9) * 2 ^ 8 + ibuf s (a + 18) * 2 ^ 16)
        res.r3 := BitVec.ofNat 32 (leSum s (a + 10) 2)
        res.r4 := BitVec.ofNat 32 (leSum s (a + 12) 4)
        res.r5 := BitVec.ofNat 32 (if gain < 2 ^ 15 then gain else gain + (2 ^ 32 - 2 ^ 16))
        res.r6 := match toc with | none => 0 | some x => BitVec.ofNat 32 (tocSum (ibuf s x))
        res.r7 := match toc with | none => 0 | some x => BitVec.ofNat 32 (1 + ibuf s x * 2 ^ 8) })

/-- 40_engine.md R167: in a block whose parameters and buffer length are in range, a step of a scan or search that
takes effect and does not finish leaves OFF strictly greater than before. -/
def Obligations.WalksAlwaysMoveForward : Prop :=
  ∀ (s t : State) (i : Instr), isWalk i = true → s.params.wellFormed = true → len s ≤ s.params.ibufCap →
    s.phase = .busy → exec i s = .next t → t ≠ s → t.phase = .busy → s.off.toNat < t.off.toNat

/-- 70_reset_and_hazards.md R472: ID3_FIND and OPUSHEAD_FIND, on a buffer the host has filled and with only the engine
left to move (the model's empty script, log entry 2), have finished within `max(0, L - OFF) + 1` engine steps. -/
def Obligations.SearchesTerminate : Prop :=
  ∀ (s : State) (i : Instr), i = .id3Find ∨ i = .opusheadFind → s.params.wellFormed = true → BufferReady s →
    s.phase = .busy → runningCommand s = some i → s.script = [] →
    ∃ t, core.run (len s - s.off.toNat + 1) s = .next t ∧ t.phase = .idle ∧ t.done = true ∧
      (t.code = .ok ∨ t.code = .notFound)

/-- 70_reset_and_hazards.md R472, R459: ADTS_SCAN, MP3_SCAN and OGG_SCAN, on a buffer the host has filled, with a FIFO
that never fills and only the engine left to move (the model's empty script, log entry 2), have finished within
`max(0, L - OFF) + 1` engine steps. -/
def Obligations.ScansTerminate : Prop :=
  ∀ (s : State) (i : Instr), i = .adtsScan ∨ i = .mp3Scan ∨ i = .oggScan → s.params.wellFormed = true → BufferReady s →
    Room s (73 * (len s - s.off.toNat)) → s.phase = .busy → runningCommand s = some i → s.script = [] →
    ∃ t, core.run (len s - s.off.toNat + 1) s = .next t ∧ t.phase = .idle ∧ t.done = true ∧
      (t.code = .ok ∨ t.code = .notFound)

/-- 20_memory.md R72: no command reads past the valid buffer: bytes at or above `L`, written or not, change no outcome. -/
def Obligations.BytesBeyondTheBufferAreNeverRead : Prop :=
  ∀ (s : State) (m : Memory) (i : Instr), (∀ a < len s, byteAt m a = byteAt s.ibuf a) →
    exec i { s with ibuf := m } = withIbuf m (exec i s)

/-- 40_engine.md R166, one step: two states alike to the running command, both with room for a record, take steps to
states that are alike again, and push the same words. -/
def Obligations.StepDependsOnlyOnCommandState : Prop :=
  ∀ (s s' t : State) (i : Instr), SameToCommand s s' → Room s 73 → Room s' 73 → exec i s = .next t →
    ∃ t', exec i s' = .next t' ∧ SameToCommand t t' ∧
      ((i = .fifoClear ∧ t.fifo = [] ∧ t'.fifo = []) ∨
        ∃ words, t.fifo = s.fifo ++ words ∧ t'.fifo = s'.fifo ++ words)

/-- 40_engine.md R166, R151: a command word written in two IDLE states with the same parameters, buffer below `L` and
operands leaves states that are alike to the command, whatever came before, and each with its own FIFO. `op`, which
acceptance overwrites, is alike where the command starts; where the word is refused (ILLEGAL or RANGE) acceptance
leaves `op` as it was, and the states are alike in all but it. -/
def Obligations.AcceptanceForgetsThePast : Prop :=
  ∀ (s s' t : State) (w : Word), s.phase = .idle → s'.phase = .idle → s.params = s'.params → s.bufLen = s'.bufLen →
    s.arg0 = s'.arg0 → s.arg1 = s'.arg1 → (∀ a < len s, byteAt s.ibuf a = byteAt s'.ibuf a) →
    takeMove (.regWrite 0x08 32 w) s = .next t →
    ∃ t', takeMove (.regWrite 0x08 32 w) s' = .next t' ∧ SameToCommand t { t' with op := t.op } ∧
      (t.phase = .busy → SameToCommand t t') ∧ t.fifo = s.fifo ∧ t'.fifo = s'.fifo

/-! Invariants. -/

/-- The four invariants below hold at reset, where nothing is running, written or pushed. -/
def Obligations.InvariantsHoldAtReset : Prop :=
  StorageInv State.reset ∧ LifecycleInv State.reset ∧ SequenceInv State.reset ∧ ProgressInv State.reset

/-- 00_scope.md R7, 20_memory.md R70, R71, 10_state.md R46: every step, the host's moves included, keeps the parameters
in range, the input buffer in its canonical form inside IBUF, and the FIFO within OUT_DEPTH. -/
def Obligations.StepKeepsStorageInv : Prop :=
  ∀ s t : State, StorageInv s → step s = .next t → StorageInv t

/-- 40_engine.md R151, R156, 70_reset_and_hazards.md R458: every step keeps the engine in a legal command while BUSY,
with DONE 0, CODE OK and every RES register 0 until the finishing step. -/
def Obligations.StepKeepsLifecycleInv : Prop :=
  ∀ s t : State, LifecycleInv s → step s = .next t → LifecycleInv t

/-- 10_state.md R35, R36: every step keeps OGG_MISSING at 0 while MISSING_VALID is 0, and OGG_SEQ at 0 unless CMD holds
OGG_SCAN. -/
def Obligations.StepKeepsSequenceInv : Prop :=
  ∀ s t : State, LifecycleInv s → SequenceInv s → step s = .next t → SequenceInv t

/-- 70_reset_and_hazards.md R472, 10_state.md R30, R47: every step keeps STEPS and the counters of a running scan or
search within the offsets walked, and so within `L`, and OFF below `max(ARG0, L + 65307)`. -/
def Obligations.StepKeepsProgressInv : Prop :=
  ∀ s t : State, StorageInv s → LifecycleInv s → ProgressInv s → step s = .next t → ProgressInv t
end

