-- ==== Sys2Proof/Laws/Memory.lean ====
section
/-! SUPPORT. The input buffer's laws: a read after a write, the canonical form kept, and what a span read says. -/

namespace Sys2Proof.Machine

theorem byteAt_setByte_same (m : Memory) (a : Nat) (v : Byte) : byteAt (setByte m a v) a = some v := by
  induction m with
  | nil => simp [setByte, byteAt]
  | cons c rest ih =>
    obtain ⟨x, b⟩ := c
    simp only [setByte]
    split
    · simp [byteAt]
    · split
      · simp [byteAt]
      · rename_i _ h
        simp [byteAt, ih, Ne.symm h]

theorem byteAt_setByte_other (m : Memory) {a x : Nat} (v : Byte) (h : x ≠ a) :
    byteAt (setByte m a v) x = byteAt m x := by
  induction m with
  | nil => simp [setByte, byteAt, Ne.symm h]
  | cons c rest ih =>
    obtain ⟨y, b⟩ := c
    simp only [setByte]
    split
    · simp [byteAt, Ne.symm h]
    · split
      · rename_i hy
        subst hy
        simp [byteAt, Ne.symm h]
      · simp [byteAt, ih]

/-- The canonical form of a longer list: its head lies below every address of the rest. -/
theorem Memory.wf_cons (c : Host.Cell) (m : Memory) :
    Memory.wf (c :: m) = true ↔ Memory.wf m = true ∧ ∀ d ∈ m, c.1 < d.1 := by
  induction m generalizing c with
  | nil => simp [Memory.wf]
  | cons d rest ih =>
    simp only [Memory.wf, Bool.and_eq_true, decide_eq_true_eq, List.mem_cons, forall_eq_or_imp]
    constructor
    · rintro ⟨h, hw⟩
      exact ⟨hw, h, fun e he => Nat.lt_trans h (((ih d).1 hw).2 e he)⟩
    · rintro ⟨hw, h, _⟩
      exact ⟨h, hw⟩

theorem mem_setByte {m : Memory} {a : Nat} {v : Byte} {c : Host.Cell} (h : c ∈ setByte m a v) :
    c = (a, v) ∨ c ∈ m := by
  induction m with
  | nil => simpa [setByte] using h
  | cons d rest ih =>
    obtain ⟨x, b⟩ := d
    simp only [setByte] at h
    split at h
    · simpa using h
    · split at h
      · rcases List.mem_cons.1 h with h | h
        · exact .inl h
        · exact .inr (List.mem_cons_of_mem _ h)
      · rcases List.mem_cons.1 h with h | h
        · exact .inr (h ▸ List.mem_cons_self)
        · exact (ih h).imp_right (List.mem_cons_of_mem _)

/-- A write keeps the canonical form. -/
theorem setByte_wf {m : Memory} (h : Memory.wf m = true) (a : Nat) (v : Byte) : Memory.wf (setByte m a v) = true := by
  induction m with
  | nil => simp [setByte, Memory.wf]
  | cons d rest ih =>
    obtain ⟨x, b⟩ := d
    obtain ⟨hw, hlt⟩ := (Memory.wf_cons _ _).1 h
    simp only [setByte]
    split
    · rename_i hx
      simp only [Memory.wf_cons, List.mem_cons, forall_eq_or_imp]
      exact ⟨⟨hw, hlt⟩, hx, fun e he => Nat.lt_trans hx (hlt e he)⟩
    · split
      · rename_i hx
        subst hx
        simp only [Memory.wf_cons]
        exact ⟨hw, hlt⟩
      · simp only [Memory.wf_cons]
        refine ⟨ih hw, fun e he => ?_⟩
        rcases mem_setByte he with rfl | he
        · dsimp only; omega
        · exact hlt e he

/-- A write inside IBUF keeps every address inside IBUF. -/
theorem setByte_below {m : Memory} {cap : Nat} (h : Memory.below m cap = true) {a : Nat} (ha : a < cap) (v : Byte) :
    Memory.below (setByte m a v) cap = true := by
  simp only [Memory.below, List.all_eq_true, decide_eq_true_eq] at *
  intro c hc
  rcases mem_setByte hc with rfl | hc
  · exact ha
  · exact h c hc

/-- Everything a byte read can do. -/
theorem readByte_ok {m : Memory} {a : Nat} {b : Byte} : readByte m a = .ok b ↔ byteAt m a = some b := by
  unfold readByte
  cases byteAt m a <;> simp

/-- A span read answers exactly the bytes that stand there. -/
theorem memRead_ok {m : Memory} {a n : Nat} {bs : List Byte} :
    memRead m a n = .ok bs ↔ bs.length = n ∧ ∀ i (h : i < bs.length), byteAt m (a + i) = some bs[i] := by
  induction n generalizing a bs with
  | zero =>
    simp only [memRead, Except.ok.injEq]
    constructor
    · rintro rfl; simp
    · rintro ⟨h, _⟩; exact (List.length_eq_zero_iff.1 h).symm
  | succ n ih =>
    cases bs with
    | nil =>
      simp only [memRead, List.length_nil]
      constructor
      · intro h; split at h
        · cases h
        · split at h <;> cases h
      · rintro ⟨h, _⟩; cases h
    | cons b rest =>
      have split_all : (∀ i (h : i < (b :: rest).length), byteAt m (a + i) = some (b :: rest)[i]) ↔
          byteAt m a = some b ∧ ∀ i (h : i < rest.length), byteAt m (a + 1 + i) = some rest[i] := by
        constructor
        · intro h
          refine ⟨h 0 (Nat.succ_pos _), fun i hi => ?_⟩
          have := h (i + 1) (by simpa using hi)
          simpa [Nat.add_assoc, Nat.add_comm 1] using this
        · rintro ⟨h0, h⟩ i hi
          cases i with
          | zero => exact h0
          | succ i =>
            have := h i (by simpa using hi)
            simpa [Nat.add_assoc, Nat.add_comm 1] using this
      rw [split_all, ← readByte_ok]
      simp only [memRead, List.length_cons, Nat.add_right_cancel_iff]
      cases hb : readByte m a with
      | error f => simp
      | ok c =>
        cases hr : memRead m (a + 1) n with
        | error f =>
          simp only [reduceCtorEq, Except.ok.injEq, false_iff, not_and]
          intro hl _ h
          have := ih.2 ⟨hl, h⟩
          rw [hr] at this
          cases this
        | ok cs =>
          simp only [Except.ok.injEq, List.cons.injEq]
          constructor
          · rintro ⟨rfl, rfl⟩
            exact ⟨(ih.1 hr).1, rfl, (ih.1 hr).2⟩
          · rintro ⟨hl, rfl, h⟩
            have := ih.2 ⟨hl, h⟩
            rw [hr] at this
            cases this
            exact ⟨rfl, rfl⟩

/-- A span read that fails names the first unwritten byte of the span. -/
theorem memRead_error {m : Memory} {a n : Nat} {f : Fault} (h : memRead m a n = .error f) :
    ∃ i < n, byteAt m (a + i) = none ∧ f = .unwrittenByte (a + i) ∧ ∀ j < i, byteAt m (a + j) ≠ none := by
  induction n generalizing a with
  | zero => cases h
  | succ n ih =>
    simp only [memRead] at h
    split at h
    · rename_i g hg
      cases h
      refine ⟨0, by omega, ?_⟩
      unfold readByte at hg
      split at hg
      · cases hg
      · rename_i hn
        cases hg
        exact ⟨by simpa using hn, rfl, fun j hj => absurd hj (Nat.not_lt_zero j)⟩
    · rename_i b hb
      split at h
      · rename_i g hg
        cases h
        obtain ⟨i, hi, hn, rfl, hw⟩ := ih hg
        refine ⟨i + 1, by omega, by rw [← hn]; congr 1; omega, by congr 1; omega, fun j hj => ?_⟩
        cases j with
        | zero => simp [readByte_ok.1 hb]
        | succ j =>
          rw [show a + (j + 1) = a + 1 + j by omega]
          exact hw j (by omega)
      · cases h

/-- Two buffers that agree on a span read alike there (20_memory.md R72). -/
theorem memRead_congr {m m' : Memory} {a n : Nat} (h : ∀ i < n, byteAt m (a + i) = byteAt m' (a + i)) :
    memRead m a n = memRead m' a n := by
  induction n generalizing a with
  | zero => rfl
  | succ n ih =>
    have h0 : readByte m a = readByte m' a := by
      have := h 0 (by omega)
      simp only [Nat.add_zero] at this
      simp [readByte, this]
    have hrest : memRead m (a + 1) n = memRead m' (a + 1) n :=
      ih fun i hi => by simpa [Nat.add_assoc, Nat.add_comm 1] using h (i + 1) (by omega)
    simp [memRead, h0, hrest]

/-- A big-endian assembly of `n` bytes is below `2^(8n)`. -/
theorem be_lt (bs : List Byte) : be bs < 256 ^ bs.length := by
  induction bs with
  | nil => simp [be]
  | cons b rest ih =>
    have hb : b.toNat < 256 := b.isLt
    simp only [be, List.length_cons, Nat.pow_succ]
    have := Nat.mul_le_mul_right (256 ^ rest.length) (Nat.le_of_lt_succ hb)
    omega

/-- A little-endian assembly of `n` bytes is below `2^(8n)`. -/
theorem le_lt (bs : List Byte) : le bs < 256 ^ bs.length := by
  induction bs with
  | nil => simp [le]
  | cons b rest ih =>
    have hb : b.toNat < 256 := b.isLt
    simp only [le, List.length_cons, Nat.pow_succ]
    omega

end Sys2Proof.Machine
end

