-- ==== Sys2Proof/Laws/State.lean ====
section
/-! SUPPORT. What each named update of the state does to each field: one lemma a field, true by `rfl`, so that no
later proof unfolds a record update. -/

namespace Sys2Proof.Machine

variable (s : State)

/-! finish: completion (40_engine.md R156). -/

@[simp] theorem finish_params (c : Code) : (finish c s).params = s.params := rfl
@[simp] theorem finish_ie (c : Code) : (finish c s).ie = s.ie := rfl
@[simp] theorem finish_phase (c : Code) : (finish c s).phase = .idle := rfl
@[simp] theorem finish_done (c : Code) : (finish c s).done = true := rfl
@[simp] theorem finish_reject (c : Code) : (finish c s).reject = s.reject := rfl
@[simp] theorem finish_underflow (c : Code) : (finish c s).underflow = s.underflow := rfl
@[simp] theorem finish_code (c : Code) : (finish c s).code = c := rfl
@[simp] theorem finish_cmd (c : Code) : (finish c s).cmd = s.cmd := rfl
@[simp] theorem finish_bufLen (c : Code) : (finish c s).bufLen = s.bufLen := rfl
@[simp] theorem finish_arg0 (c : Code) : (finish c s).arg0 = s.arg0 := rfl
@[simp] theorem finish_arg1 (c : Code) : (finish c s).arg1 = s.arg1 := rfl
@[simp] theorem finish_off (c : Code) : (finish c s).off = s.off := rfl
@[simp] theorem finish_steps (c : Code) : (finish c s).steps = s.steps := rfl
@[simp] theorem finish_recCount (c : Code) : (finish c s).recCount = s.recCount := rfl
@[simp] theorem finish_truncCount (c : Code) : (finish c s).truncCount = s.truncCount := rfl
@[simp] theorem finish_invalidCount (c : Code) : (finish c s).invalidCount = s.invalidCount := rfl
@[simp] theorem finish_incompleteCount (c : Code) : (finish c s).incompleteCount = s.incompleteCount := rfl
@[simp] theorem finish_monoOk (c : Code) : (finish c s).monoOk = s.monoOk := rfl
@[simp] theorem finish_missingValid (c : Code) : (finish c s).missingValid = s.missingValid := rfl
@[simp] theorem finish_havePage (c : Code) : (finish c s).havePage = s.havePage := rfl
@[simp] theorem finish_oggMissing (c : Code) : (finish c s).oggMissing = s.oggMissing := rfl
@[simp] theorem finish_res (c : Code) : (finish c s).res = s.res := rfl
@[simp] theorem finish_fifo (c : Code) : (finish c s).fifo = s.fifo := rfl
@[simp] theorem finish_op (c : Code) : (finish c s).op = s.op := rfl
@[simp] theorem finish_havePrev (c : Code) : (finish c s).havePrev = s.havePrev := rfl
@[simp] theorem finish_prevEnd (c : Code) : (finish c s).prevEnd = s.prevEnd := rfl
@[simp] theorem finish_prevPn (c : Code) : (finish c s).prevPn = s.prevPn := rfl
@[simp] theorem finish_ibuf (c : Code) : (finish c s).ibuf = s.ibuf := rfl
@[simp] theorem finish_script (c : Code) : (finish c s).script = s.script := rfl
@[simp] theorem finish_replies (c : Code) : (finish c s).replies = s.replies := rfl

/-! setOff: OFF is written (10_state.md R24). -/

@[simp] theorem setOff_params (v : Nat) : (setOff v s).params = s.params := rfl
@[simp] theorem setOff_ie (v : Nat) : (setOff v s).ie = s.ie := rfl
@[simp] theorem setOff_phase (v : Nat) : (setOff v s).phase = s.phase := rfl
@[simp] theorem setOff_done (v : Nat) : (setOff v s).done = s.done := rfl
@[simp] theorem setOff_reject (v : Nat) : (setOff v s).reject = s.reject := rfl
@[simp] theorem setOff_underflow (v : Nat) : (setOff v s).underflow = s.underflow := rfl
@[simp] theorem setOff_code (v : Nat) : (setOff v s).code = s.code := rfl
@[simp] theorem setOff_cmd (v : Nat) : (setOff v s).cmd = s.cmd := rfl
@[simp] theorem setOff_bufLen (v : Nat) : (setOff v s).bufLen = s.bufLen := rfl
@[simp] theorem setOff_arg0 (v : Nat) : (setOff v s).arg0 = s.arg0 := rfl
@[simp] theorem setOff_arg1 (v : Nat) : (setOff v s).arg1 = s.arg1 := rfl
@[simp] theorem setOff_off (v : Nat) : (setOff v s).off = word v := rfl
@[simp] theorem setOff_steps (v : Nat) : (setOff v s).steps = s.steps := rfl
@[simp] theorem setOff_recCount (v : Nat) : (setOff v s).recCount = s.recCount := rfl
@[simp] theorem setOff_truncCount (v : Nat) : (setOff v s).truncCount = s.truncCount := rfl
@[simp] theorem setOff_invalidCount (v : Nat) : (setOff v s).invalidCount = s.invalidCount := rfl
@[simp] theorem setOff_incompleteCount (v : Nat) : (setOff v s).incompleteCount = s.incompleteCount := rfl
@[simp] theorem setOff_monoOk (v : Nat) : (setOff v s).monoOk = s.monoOk := rfl
@[simp] theorem setOff_missingValid (v : Nat) : (setOff v s).missingValid = s.missingValid := rfl
@[simp] theorem setOff_havePage (v : Nat) : (setOff v s).havePage = s.havePage := rfl
@[simp] theorem setOff_oggMissing (v : Nat) : (setOff v s).oggMissing = s.oggMissing := rfl
@[simp] theorem setOff_res (v : Nat) : (setOff v s).res = s.res := rfl
@[simp] theorem setOff_fifo (v : Nat) : (setOff v s).fifo = s.fifo := rfl
@[simp] theorem setOff_op (v : Nat) : (setOff v s).op = s.op := rfl
@[simp] theorem setOff_havePrev (v : Nat) : (setOff v s).havePrev = s.havePrev := rfl
@[simp] theorem setOff_prevEnd (v : Nat) : (setOff v s).prevEnd = s.prevEnd := rfl
@[simp] theorem setOff_prevPn (v : Nat) : (setOff v s).prevPn = s.prevPn := rfl
@[simp] theorem setOff_ibuf (v : Nat) : (setOff v s).ibuf = s.ibuf := rfl
@[simp] theorem setOff_script (v : Nat) : (setOff v s).script = s.script := rfl
@[simp] theorem setOff_replies (v : Nat) : (setOff v s).replies = s.replies := rfl

/-! countStep: STEPS is counted (40_engine.md R163). -/

@[simp] theorem countStep_params : (countStep s).params = s.params := rfl
@[simp] theorem countStep_ie : (countStep s).ie = s.ie := rfl
@[simp] theorem countStep_phase : (countStep s).phase = s.phase := rfl
@[simp] theorem countStep_done : (countStep s).done = s.done := rfl
@[simp] theorem countStep_reject : (countStep s).reject = s.reject := rfl
@[simp] theorem countStep_underflow : (countStep s).underflow = s.underflow := rfl
@[simp] theorem countStep_code : (countStep s).code = s.code := rfl
@[simp] theorem countStep_cmd : (countStep s).cmd = s.cmd := rfl
@[simp] theorem countStep_bufLen : (countStep s).bufLen = s.bufLen := rfl
@[simp] theorem countStep_arg0 : (countStep s).arg0 = s.arg0 := rfl
@[simp] theorem countStep_arg1 : (countStep s).arg1 = s.arg1 := rfl
@[simp] theorem countStep_off : (countStep s).off = s.off := rfl
@[simp] theorem countStep_steps : (countStep s).steps = s.steps + 1 := rfl
@[simp] theorem countStep_recCount : (countStep s).recCount = s.recCount := rfl
@[simp] theorem countStep_truncCount : (countStep s).truncCount = s.truncCount := rfl
@[simp] theorem countStep_invalidCount : (countStep s).invalidCount = s.invalidCount := rfl
@[simp] theorem countStep_incompleteCount : (countStep s).incompleteCount = s.incompleteCount := rfl
@[simp] theorem countStep_monoOk : (countStep s).monoOk = s.monoOk := rfl
@[simp] theorem countStep_missingValid : (countStep s).missingValid = s.missingValid := rfl
@[simp] theorem countStep_havePage : (countStep s).havePage = s.havePage := rfl
@[simp] theorem countStep_oggMissing : (countStep s).oggMissing = s.oggMissing := rfl
@[simp] theorem countStep_res : (countStep s).res = s.res := rfl
@[simp] theorem countStep_fifo : (countStep s).fifo = s.fifo := rfl
@[simp] theorem countStep_op : (countStep s).op = s.op := rfl
@[simp] theorem countStep_havePrev : (countStep s).havePrev = s.havePrev := rfl
@[simp] theorem countStep_prevEnd : (countStep s).prevEnd = s.prevEnd := rfl
@[simp] theorem countStep_prevPn : (countStep s).prevPn = s.prevPn := rfl
@[simp] theorem countStep_ibuf : (countStep s).ibuf = s.ibuf := rfl
@[simp] theorem countStep_script : (countStep s).script = s.script := rfl
@[simp] theorem countStep_replies : (countStep s).replies = s.replies := rfl

/-! appendWords: a record in the FIFO (40_engine.md R160). -/

@[simp] theorem appendWords_params (r : List Word) : (appendWords r s).params = s.params := rfl
@[simp] theorem appendWords_ie (r : List Word) : (appendWords r s).ie = s.ie := rfl
@[simp] theorem appendWords_phase (r : List Word) : (appendWords r s).phase = s.phase := rfl
@[simp] theorem appendWords_done (r : List Word) : (appendWords r s).done = s.done := rfl
@[simp] theorem appendWords_reject (r : List Word) : (appendWords r s).reject = s.reject := rfl
@[simp] theorem appendWords_underflow (r : List Word) : (appendWords r s).underflow = s.underflow := rfl
@[simp] theorem appendWords_code (r : List Word) : (appendWords r s).code = s.code := rfl
@[simp] theorem appendWords_cmd (r : List Word) : (appendWords r s).cmd = s.cmd := rfl
@[simp] theorem appendWords_bufLen (r : List Word) : (appendWords r s).bufLen = s.bufLen := rfl
@[simp] theorem appendWords_arg0 (r : List Word) : (appendWords r s).arg0 = s.arg0 := rfl
@[simp] theorem appendWords_arg1 (r : List Word) : (appendWords r s).arg1 = s.arg1 := rfl
@[simp] theorem appendWords_off (r : List Word) : (appendWords r s).off = s.off := rfl
@[simp] theorem appendWords_steps (r : List Word) : (appendWords r s).steps = s.steps := rfl
@[simp] theorem appendWords_recCount (r : List Word) : (appendWords r s).recCount = s.recCount := rfl
@[simp] theorem appendWords_truncCount (r : List Word) : (appendWords r s).truncCount = s.truncCount := rfl
@[simp] theorem appendWords_invalidCount (r : List Word) : (appendWords r s).invalidCount = s.invalidCount := rfl
@[simp] theorem appendWords_incompleteCount (r : List Word) : (appendWords r s).incompleteCount = s.incompleteCount := rfl
@[simp] theorem appendWords_monoOk (r : List Word) : (appendWords r s).monoOk = s.monoOk := rfl
@[simp] theorem appendWords_missingValid (r : List Word) : (appendWords r s).missingValid = s.missingValid := rfl
@[simp] theorem appendWords_havePage (r : List Word) : (appendWords r s).havePage = s.havePage := rfl
@[simp] theorem appendWords_oggMissing (r : List Word) : (appendWords r s).oggMissing = s.oggMissing := rfl
@[simp] theorem appendWords_res (r : List Word) : (appendWords r s).res = s.res := rfl
@[simp] theorem appendWords_fifo (r : List Word) : (appendWords r s).fifo = s.fifo ++ r := rfl
@[simp] theorem appendWords_op (r : List Word) : (appendWords r s).op = s.op := rfl
@[simp] theorem appendWords_havePrev (r : List Word) : (appendWords r s).havePrev = s.havePrev := rfl
@[simp] theorem appendWords_prevEnd (r : List Word) : (appendWords r s).prevEnd = s.prevEnd := rfl
@[simp] theorem appendWords_prevPn (r : List Word) : (appendWords r s).prevPn = s.prevPn := rfl
@[simp] theorem appendWords_ibuf (r : List Word) : (appendWords r s).ibuf = s.ibuf := rfl
@[simp] theorem appendWords_script (r : List Word) : (appendWords r s).script = s.script := rfl
@[simp] theorem appendWords_replies (r : List Word) : (appendWords r s).replies = s.replies := rfl

/-! setRes: the result registers (10_state.md R29). -/

@[simp] theorem setRes_params (r : Results) : (setRes r s).params = s.params := rfl
@[simp] theorem setRes_ie (r : Results) : (setRes r s).ie = s.ie := rfl
@[simp] theorem setRes_phase (r : Results) : (setRes r s).phase = s.phase := rfl
@[simp] theorem setRes_done (r : Results) : (setRes r s).done = s.done := rfl
@[simp] theorem setRes_reject (r : Results) : (setRes r s).reject = s.reject := rfl
@[simp] theorem setRes_underflow (r : Results) : (setRes r s).underflow = s.underflow := rfl
@[simp] theorem setRes_code (r : Results) : (setRes r s).code = s.code := rfl
@[simp] theorem setRes_cmd (r : Results) : (setRes r s).cmd = s.cmd := rfl
@[simp] theorem setRes_bufLen (r : Results) : (setRes r s).bufLen = s.bufLen := rfl
@[simp] theorem setRes_arg0 (r : Results) : (setRes r s).arg0 = s.arg0 := rfl
@[simp] theorem setRes_arg1 (r : Results) : (setRes r s).arg1 = s.arg1 := rfl
@[simp] theorem setRes_off (r : Results) : (setRes r s).off = s.off := rfl
@[simp] theorem setRes_steps (r : Results) : (setRes r s).steps = s.steps := rfl
@[simp] theorem setRes_recCount (r : Results) : (setRes r s).recCount = s.recCount := rfl
@[simp] theorem setRes_truncCount (r : Results) : (setRes r s).truncCount = s.truncCount := rfl
@[simp] theorem setRes_invalidCount (r : Results) : (setRes r s).invalidCount = s.invalidCount := rfl
@[simp] theorem setRes_incompleteCount (r : Results) : (setRes r s).incompleteCount = s.incompleteCount := rfl
@[simp] theorem setRes_monoOk (r : Results) : (setRes r s).monoOk = s.monoOk := rfl
@[simp] theorem setRes_missingValid (r : Results) : (setRes r s).missingValid = s.missingValid := rfl
@[simp] theorem setRes_havePage (r : Results) : (setRes r s).havePage = s.havePage := rfl
@[simp] theorem setRes_oggMissing (r : Results) : (setRes r s).oggMissing = s.oggMissing := rfl
@[simp] theorem setRes_res (r : Results) : (setRes r s).res = r := rfl
@[simp] theorem setRes_fifo (r : Results) : (setRes r s).fifo = s.fifo := rfl
@[simp] theorem setRes_op (r : Results) : (setRes r s).op = s.op := rfl
@[simp] theorem setRes_havePrev (r : Results) : (setRes r s).havePrev = s.havePrev := rfl
@[simp] theorem setRes_prevEnd (r : Results) : (setRes r s).prevEnd = s.prevEnd := rfl
@[simp] theorem setRes_prevPn (r : Results) : (setRes r s).prevPn = s.prevPn := rfl
@[simp] theorem setRes_ibuf (r : Results) : (setRes r s).ibuf = s.ibuf := rfl
@[simp] theorem setRes_script (r : Results) : (setRes r s).script = s.script := rfl
@[simp] theorem setRes_replies (r : Results) : (setRes r s).replies = s.replies := rfl

/-! chain: the previous header's end (40_engine.md R161). -/

@[simp] theorem chain_params (o n : Nat) : (chain o n s).params = s.params := rfl
@[simp] theorem chain_ie (o n : Nat) : (chain o n s).ie = s.ie := rfl
@[simp] theorem chain_phase (o n : Nat) : (chain o n s).phase = s.phase := rfl
@[simp] theorem chain_done (o n : Nat) : (chain o n s).done = s.done := rfl
@[simp] theorem chain_reject (o n : Nat) : (chain o n s).reject = s.reject := rfl
@[simp] theorem chain_underflow (o n : Nat) : (chain o n s).underflow = s.underflow := rfl
@[simp] theorem chain_code (o n : Nat) : (chain o n s).code = s.code := rfl
@[simp] theorem chain_cmd (o n : Nat) : (chain o n s).cmd = s.cmd := rfl
@[simp] theorem chain_bufLen (o n : Nat) : (chain o n s).bufLen = s.bufLen := rfl
@[simp] theorem chain_arg0 (o n : Nat) : (chain o n s).arg0 = s.arg0 := rfl
@[simp] theorem chain_arg1 (o n : Nat) : (chain o n s).arg1 = s.arg1 := rfl
@[simp] theorem chain_off (o n : Nat) : (chain o n s).off = s.off := rfl
@[simp] theorem chain_steps (o n : Nat) : (chain o n s).steps = s.steps := rfl
@[simp] theorem chain_recCount (o n : Nat) : (chain o n s).recCount = s.recCount := rfl
@[simp] theorem chain_truncCount (o n : Nat) : (chain o n s).truncCount = s.truncCount := rfl
@[simp] theorem chain_invalidCount (o n : Nat) : (chain o n s).invalidCount = s.invalidCount := rfl
@[simp] theorem chain_incompleteCount (o n : Nat) : (chain o n s).incompleteCount = s.incompleteCount := rfl
@[simp] theorem chain_monoOk (o n : Nat) : (chain o n s).monoOk = s.monoOk := rfl
@[simp] theorem chain_missingValid (o n : Nat) : (chain o n s).missingValid = s.missingValid := rfl
@[simp] theorem chain_havePage (o n : Nat) : (chain o n s).havePage = s.havePage := rfl
@[simp] theorem chain_oggMissing (o n : Nat) : (chain o n s).oggMissing = s.oggMissing := rfl
@[simp] theorem chain_res (o n : Nat) : (chain o n s).res = s.res := rfl
@[simp] theorem chain_fifo (o n : Nat) : (chain o n s).fifo = s.fifo := rfl
@[simp] theorem chain_op (o n : Nat) : (chain o n s).op = s.op := rfl
@[simp] theorem chain_havePrev (o n : Nat) : (chain o n s).havePrev = true := rfl
@[simp] theorem chain_prevEnd (o n : Nat) : (chain o n s).prevEnd = word (o + n) := rfl
@[simp] theorem chain_prevPn (o n : Nat) : (chain o n s).prevPn = s.prevPn := rfl
@[simp] theorem chain_ibuf (o n : Nat) : (chain o n s).ibuf = s.ibuf := rfl
@[simp] theorem chain_script (o n : Nat) : (chain o n s).script = s.script := rfl
@[simp] theorem chain_replies (o n : Nat) : (chain o n s).replies = s.replies := rfl

/-! countRecord: the record counters (40_engine.md R162). -/

@[simp] theorem countRecord_params (inc inv : Bool) : (countRecord inc inv s).params = s.params := rfl
@[simp] theorem countRecord_ie (inc inv : Bool) : (countRecord inc inv s).ie = s.ie := rfl
@[simp] theorem countRecord_phase (inc inv : Bool) : (countRecord inc inv s).phase = s.phase := rfl
@[simp] theorem countRecord_done (inc inv : Bool) : (countRecord inc inv s).done = s.done := rfl
@[simp] theorem countRecord_reject (inc inv : Bool) : (countRecord inc inv s).reject = s.reject := rfl
@[simp] theorem countRecord_underflow (inc inv : Bool) : (countRecord inc inv s).underflow = s.underflow := rfl
@[simp] theorem countRecord_code (inc inv : Bool) : (countRecord inc inv s).code = s.code := rfl
@[simp] theorem countRecord_cmd (inc inv : Bool) : (countRecord inc inv s).cmd = s.cmd := rfl
@[simp] theorem countRecord_bufLen (inc inv : Bool) : (countRecord inc inv s).bufLen = s.bufLen := rfl
@[simp] theorem countRecord_arg0 (inc inv : Bool) : (countRecord inc inv s).arg0 = s.arg0 := rfl
@[simp] theorem countRecord_arg1 (inc inv : Bool) : (countRecord inc inv s).arg1 = s.arg1 := rfl
@[simp] theorem countRecord_off (inc inv : Bool) : (countRecord inc inv s).off = s.off := rfl
@[simp] theorem countRecord_steps (inc inv : Bool) : (countRecord inc inv s).steps = s.steps := rfl
@[simp] theorem countRecord_recCount (inc inv : Bool) : (countRecord inc inv s).recCount = s.recCount + 1 := rfl
@[simp] theorem countRecord_truncCount (inc inv : Bool) : (countRecord inc inv s).truncCount = s.truncCount := rfl
@[simp] theorem countRecord_invalidCount (inc inv : Bool) : (countRecord inc inv s).invalidCount = if inv then s.invalidCount + 1 else s.invalidCount := rfl
@[simp] theorem countRecord_incompleteCount (inc inv : Bool) : (countRecord inc inv s).incompleteCount = if inc then s.incompleteCount + 1 else s.incompleteCount := rfl
@[simp] theorem countRecord_monoOk (inc inv : Bool) : (countRecord inc inv s).monoOk = s.monoOk := rfl
@[simp] theorem countRecord_missingValid (inc inv : Bool) : (countRecord inc inv s).missingValid = s.missingValid := rfl
@[simp] theorem countRecord_havePage (inc inv : Bool) : (countRecord inc inv s).havePage = s.havePage := rfl
@[simp] theorem countRecord_oggMissing (inc inv : Bool) : (countRecord inc inv s).oggMissing = s.oggMissing := rfl
@[simp] theorem countRecord_res (inc inv : Bool) : (countRecord inc inv s).res = s.res := rfl
@[simp] theorem countRecord_fifo (inc inv : Bool) : (countRecord inc inv s).fifo = s.fifo := rfl
@[simp] theorem countRecord_op (inc inv : Bool) : (countRecord inc inv s).op = s.op := rfl
@[simp] theorem countRecord_havePrev (inc inv : Bool) : (countRecord inc inv s).havePrev = s.havePrev := rfl
@[simp] theorem countRecord_prevEnd (inc inv : Bool) : (countRecord inc inv s).prevEnd = s.prevEnd := rfl
@[simp] theorem countRecord_prevPn (inc inv : Bool) : (countRecord inc inv s).prevPn = s.prevPn := rfl
@[simp] theorem countRecord_ibuf (inc inv : Bool) : (countRecord inc inv s).ibuf = s.ibuf := rfl
@[simp] theorem countRecord_script (inc inv : Bool) : (countRecord inc inv s).script = s.script := rfl
@[simp] theorem countRecord_replies (inc inv : Bool) : (countRecord inc inv s).replies = s.replies := rfl

/-! noCandidate: an iteration that finds nothing (40_engine.md R157). -/

@[simp] theorem noCandidate_params : (noCandidate s).params = s.params := rfl
@[simp] theorem noCandidate_ie : (noCandidate s).ie = s.ie := rfl
@[simp] theorem noCandidate_phase : (noCandidate s).phase = s.phase := rfl
@[simp] theorem noCandidate_done : (noCandidate s).done = s.done := rfl
@[simp] theorem noCandidate_reject : (noCandidate s).reject = s.reject := rfl
@[simp] theorem noCandidate_underflow : (noCandidate s).underflow = s.underflow := rfl
@[simp] theorem noCandidate_code : (noCandidate s).code = s.code := rfl
@[simp] theorem noCandidate_cmd : (noCandidate s).cmd = s.cmd := rfl
@[simp] theorem noCandidate_bufLen : (noCandidate s).bufLen = s.bufLen := rfl
@[simp] theorem noCandidate_arg0 : (noCandidate s).arg0 = s.arg0 := rfl
@[simp] theorem noCandidate_arg1 : (noCandidate s).arg1 = s.arg1 := rfl
@[simp] theorem noCandidate_off : (noCandidate s).off = word (s.off.toNat + 1) := rfl
@[simp] theorem noCandidate_steps : (noCandidate s).steps = s.steps + 1 := rfl
@[simp] theorem noCandidate_recCount : (noCandidate s).recCount = s.recCount := rfl
@[simp] theorem noCandidate_truncCount : (noCandidate s).truncCount = s.truncCount := rfl
@[simp] theorem noCandidate_invalidCount : (noCandidate s).invalidCount = s.invalidCount := rfl
@[simp] theorem noCandidate_incompleteCount : (noCandidate s).incompleteCount = s.incompleteCount := rfl
@[simp] theorem noCandidate_monoOk : (noCandidate s).monoOk = s.monoOk := rfl
@[simp] theorem noCandidate_missingValid : (noCandidate s).missingValid = s.missingValid := rfl
@[simp] theorem noCandidate_havePage : (noCandidate s).havePage = s.havePage := rfl
@[simp] theorem noCandidate_oggMissing : (noCandidate s).oggMissing = s.oggMissing := rfl
@[simp] theorem noCandidate_res : (noCandidate s).res = s.res := rfl
@[simp] theorem noCandidate_fifo : (noCandidate s).fifo = s.fifo := rfl
@[simp] theorem noCandidate_op : (noCandidate s).op = s.op := rfl
@[simp] theorem noCandidate_havePrev : (noCandidate s).havePrev = s.havePrev := rfl
@[simp] theorem noCandidate_prevEnd : (noCandidate s).prevEnd = s.prevEnd := rfl
@[simp] theorem noCandidate_prevPn : (noCandidate s).prevPn = s.prevPn := rfl
@[simp] theorem noCandidate_ibuf : (noCandidate s).ibuf = s.ibuf := rfl
@[simp] theorem noCandidate_script : (noCandidate s).script = s.script := rfl
@[simp] theorem noCandidate_replies : (noCandidate s).replies = s.replies := rfl

/-! truncatedCandidate: too few bytes left (40_engine.md R157, R159). -/

@[simp] theorem truncatedCandidate_params : (truncatedCandidate s).params = s.params := rfl
@[simp] theorem truncatedCandidate_ie : (truncatedCandidate s).ie = s.ie := rfl
@[simp] theorem truncatedCandidate_phase : (truncatedCandidate s).phase = s.phase := rfl
@[simp] theorem truncatedCandidate_done : (truncatedCandidate s).done = s.done := rfl
@[simp] theorem truncatedCandidate_reject : (truncatedCandidate s).reject = s.reject := rfl
@[simp] theorem truncatedCandidate_underflow : (truncatedCandidate s).underflow = s.underflow := rfl
@[simp] theorem truncatedCandidate_code : (truncatedCandidate s).code = s.code := rfl
@[simp] theorem truncatedCandidate_cmd : (truncatedCandidate s).cmd = s.cmd := rfl
@[simp] theorem truncatedCandidate_bufLen : (truncatedCandidate s).bufLen = s.bufLen := rfl
@[simp] theorem truncatedCandidate_arg0 : (truncatedCandidate s).arg0 = s.arg0 := rfl
@[simp] theorem truncatedCandidate_arg1 : (truncatedCandidate s).arg1 = s.arg1 := rfl
@[simp] theorem truncatedCandidate_off : (truncatedCandidate s).off = word (s.off.toNat + 1) := rfl
@[simp] theorem truncatedCandidate_steps : (truncatedCandidate s).steps = s.steps + 1 := rfl
@[simp] theorem truncatedCandidate_recCount : (truncatedCandidate s).recCount = s.recCount := rfl
@[simp] theorem truncatedCandidate_truncCount : (truncatedCandidate s).truncCount = s.truncCount + 1 := rfl
@[simp] theorem truncatedCandidate_invalidCount : (truncatedCandidate s).invalidCount = s.invalidCount := rfl
@[simp] theorem truncatedCandidate_incompleteCount : (truncatedCandidate s).incompleteCount = s.incompleteCount := rfl
@[simp] theorem truncatedCandidate_monoOk : (truncatedCandidate s).monoOk = s.monoOk := rfl
@[simp] theorem truncatedCandidate_missingValid : (truncatedCandidate s).missingValid = s.missingValid := rfl
@[simp] theorem truncatedCandidate_havePage : (truncatedCandidate s).havePage = s.havePage := rfl
@[simp] theorem truncatedCandidate_oggMissing : (truncatedCandidate s).oggMissing = s.oggMissing := rfl
@[simp] theorem truncatedCandidate_res : (truncatedCandidate s).res = s.res := rfl
@[simp] theorem truncatedCandidate_fifo : (truncatedCandidate s).fifo = s.fifo := rfl
@[simp] theorem truncatedCandidate_op : (truncatedCandidate s).op = s.op := rfl
@[simp] theorem truncatedCandidate_havePrev : (truncatedCandidate s).havePrev = s.havePrev := rfl
@[simp] theorem truncatedCandidate_prevEnd : (truncatedCandidate s).prevEnd = s.prevEnd := rfl
@[simp] theorem truncatedCandidate_prevPn : (truncatedCandidate s).prevPn = s.prevPn := rfl
@[simp] theorem truncatedCandidate_ibuf : (truncatedCandidate s).ibuf = s.ibuf := rfl
@[simp] theorem truncatedCandidate_script : (truncatedCandidate s).script = s.script := rfl
@[simp] theorem truncatedCandidate_replies : (truncatedCandidate s).replies = s.replies := rfl

/-! invalidCandidate: a frame size of 0 (40_engine.md R157). -/

@[simp] theorem invalidCandidate_params : (invalidCandidate s).params = s.params := rfl
@[simp] theorem invalidCandidate_ie : (invalidCandidate s).ie = s.ie := rfl
@[simp] theorem invalidCandidate_phase : (invalidCandidate s).phase = s.phase := rfl
@[simp] theorem invalidCandidate_done : (invalidCandidate s).done = s.done := rfl
@[simp] theorem invalidCandidate_reject : (invalidCandidate s).reject = s.reject := rfl
@[simp] theorem invalidCandidate_underflow : (invalidCandidate s).underflow = s.underflow := rfl
@[simp] theorem invalidCandidate_code : (invalidCandidate s).code = s.code := rfl
@[simp] theorem invalidCandidate_cmd : (invalidCandidate s).cmd = s.cmd := rfl
@[simp] theorem invalidCandidate_bufLen : (invalidCandidate s).bufLen = s.bufLen := rfl
@[simp] theorem invalidCandidate_arg0 : (invalidCandidate s).arg0 = s.arg0 := rfl
@[simp] theorem invalidCandidate_arg1 : (invalidCandidate s).arg1 = s.arg1 := rfl
@[simp] theorem invalidCandidate_off : (invalidCandidate s).off = word (s.off.toNat + 1) := rfl
@[simp] theorem invalidCandidate_steps : (invalidCandidate s).steps = s.steps + 1 := rfl
@[simp] theorem invalidCandidate_recCount : (invalidCandidate s).recCount = s.recCount := rfl
@[simp] theorem invalidCandidate_truncCount : (invalidCandidate s).truncCount = s.truncCount := rfl
@[simp] theorem invalidCandidate_invalidCount : (invalidCandidate s).invalidCount = s.invalidCount + 1 := rfl
@[simp] theorem invalidCandidate_incompleteCount : (invalidCandidate s).incompleteCount = s.incompleteCount := rfl
@[simp] theorem invalidCandidate_monoOk : (invalidCandidate s).monoOk = s.monoOk := rfl
@[simp] theorem invalidCandidate_missingValid : (invalidCandidate s).missingValid = s.missingValid := rfl
@[simp] theorem invalidCandidate_havePage : (invalidCandidate s).havePage = s.havePage := rfl
@[simp] theorem invalidCandidate_oggMissing : (invalidCandidate s).oggMissing = s.oggMissing := rfl
@[simp] theorem invalidCandidate_res : (invalidCandidate s).res = s.res := rfl
@[simp] theorem invalidCandidate_fifo : (invalidCandidate s).fifo = s.fifo := rfl
@[simp] theorem invalidCandidate_op : (invalidCandidate s).op = s.op := rfl
@[simp] theorem invalidCandidate_havePrev : (invalidCandidate s).havePrev = s.havePrev := rfl
@[simp] theorem invalidCandidate_prevEnd : (invalidCandidate s).prevEnd = s.prevEnd := rfl
@[simp] theorem invalidCandidate_prevPn : (invalidCandidate s).prevPn = s.prevPn := rfl
@[simp] theorem invalidCandidate_ibuf : (invalidCandidate s).ibuf = s.ibuf := rfl
@[simp] theorem invalidCandidate_script : (invalidCandidate s).script = s.script := rfl
@[simp] theorem invalidCandidate_replies : (invalidCandidate s).replies = s.replies := rfl

/-! seqCheck: the page-sequence check (44_ogg.md R319). -/

@[simp] theorem seqCheck_params (n : Word) : (seqCheck n s).params = s.params := rfl
@[simp] theorem seqCheck_ie (n : Word) : (seqCheck n s).ie = s.ie := rfl
@[simp] theorem seqCheck_phase (n : Word) : (seqCheck n s).phase = s.phase := rfl
@[simp] theorem seqCheck_done (n : Word) : (seqCheck n s).done = s.done := rfl
@[simp] theorem seqCheck_reject (n : Word) : (seqCheck n s).reject = s.reject := rfl
@[simp] theorem seqCheck_underflow (n : Word) : (seqCheck n s).underflow = s.underflow := rfl
@[simp] theorem seqCheck_code (n : Word) : (seqCheck n s).code = s.code := rfl
@[simp] theorem seqCheck_cmd (n : Word) : (seqCheck n s).cmd = s.cmd := rfl
@[simp] theorem seqCheck_bufLen (n : Word) : (seqCheck n s).bufLen = s.bufLen := rfl
@[simp] theorem seqCheck_arg0 (n : Word) : (seqCheck n s).arg0 = s.arg0 := rfl
@[simp] theorem seqCheck_arg1 (n : Word) : (seqCheck n s).arg1 = s.arg1 := rfl
@[simp] theorem seqCheck_off (n : Word) : (seqCheck n s).off = s.off := rfl
@[simp] theorem seqCheck_steps (n : Word) : (seqCheck n s).steps = s.steps := rfl
@[simp] theorem seqCheck_recCount (n : Word) : (seqCheck n s).recCount = s.recCount := rfl
@[simp] theorem seqCheck_truncCount (n : Word) : (seqCheck n s).truncCount = s.truncCount := rfl
@[simp] theorem seqCheck_invalidCount (n : Word) : (seqCheck n s).invalidCount = s.invalidCount := rfl
@[simp] theorem seqCheck_incompleteCount (n : Word) : (seqCheck n s).incompleteCount = s.incompleteCount := rfl
@[simp] theorem seqCheck_monoOk (n : Word) : (seqCheck n s).monoOk = (s.monoOk && !(s.havePage && n.ule s.prevPn)) := rfl
@[simp] theorem seqCheck_missingValid (n : Word) : (seqCheck n s).missingValid = (s.missingValid || (s.havePage && n != s.prevPn + 1)) := rfl
@[simp] theorem seqCheck_havePage (n : Word) : (seqCheck n s).havePage = true := rfl
@[simp] theorem seqCheck_oggMissing (n : Word) : (seqCheck n s).oggMissing = bif s.havePage && !s.missingValid && n != s.prevPn + 1 then s.prevPn + 1 else s.oggMissing := rfl
@[simp] theorem seqCheck_res (n : Word) : (seqCheck n s).res = s.res := rfl
@[simp] theorem seqCheck_fifo (n : Word) : (seqCheck n s).fifo = s.fifo := rfl
@[simp] theorem seqCheck_op (n : Word) : (seqCheck n s).op = s.op := rfl
@[simp] theorem seqCheck_havePrev (n : Word) : (seqCheck n s).havePrev = s.havePrev := rfl
@[simp] theorem seqCheck_prevEnd (n : Word) : (seqCheck n s).prevEnd = s.prevEnd := rfl
@[simp] theorem seqCheck_prevPn (n : Word) : (seqCheck n s).prevPn = n := rfl
@[simp] theorem seqCheck_ibuf (n : Word) : (seqCheck n s).ibuf = s.ibuf := rfl
@[simp] theorem seqCheck_script (n : Word) : (seqCheck n s).script = s.script := rfl
@[simp] theorem seqCheck_replies (n : Word) : (seqCheck n s).replies = s.replies := rfl

/-! latchCommand: the acceptance actions (40_engine.md R151). -/

@[simp] theorem latchCommand_params (c : Word) : (latchCommand c s).params = s.params := rfl
@[simp] theorem latchCommand_ie (c : Word) : (latchCommand c s).ie = s.ie := rfl
@[simp] theorem latchCommand_phase (c : Word) : (latchCommand c s).phase = s.phase := rfl
@[simp] theorem latchCommand_done (c : Word) : (latchCommand c s).done = false := rfl
@[simp] theorem latchCommand_reject (c : Word) : (latchCommand c s).reject = s.reject := rfl
@[simp] theorem latchCommand_underflow (c : Word) : (latchCommand c s).underflow = s.underflow := rfl
@[simp] theorem latchCommand_code (c : Word) : (latchCommand c s).code = .ok := rfl
@[simp] theorem latchCommand_cmd (c : Word) : (latchCommand c s).cmd = c := rfl
@[simp] theorem latchCommand_bufLen (c : Word) : (latchCommand c s).bufLen = s.bufLen := rfl
@[simp] theorem latchCommand_arg0 (c : Word) : (latchCommand c s).arg0 = s.arg0 := rfl
@[simp] theorem latchCommand_arg1 (c : Word) : (latchCommand c s).arg1 = s.arg1 := rfl
@[simp] theorem latchCommand_off (c : Word) : (latchCommand c s).off = s.arg0 := rfl
@[simp] theorem latchCommand_steps (c : Word) : (latchCommand c s).steps = 0 := rfl
@[simp] theorem latchCommand_recCount (c : Word) : (latchCommand c s).recCount = 0 := rfl
@[simp] theorem latchCommand_truncCount (c : Word) : (latchCommand c s).truncCount = 0 := rfl
@[simp] theorem latchCommand_invalidCount (c : Word) : (latchCommand c s).invalidCount = 0 := rfl
@[simp] theorem latchCommand_incompleteCount (c : Word) : (latchCommand c s).incompleteCount = 0 := rfl
@[simp] theorem latchCommand_monoOk (c : Word) : (latchCommand c s).monoOk = (c == 0x00000032) := rfl
@[simp] theorem latchCommand_missingValid (c : Word) : (latchCommand c s).missingValid = false := rfl
@[simp] theorem latchCommand_havePage (c : Word) : (latchCommand c s).havePage = false := rfl
@[simp] theorem latchCommand_oggMissing (c : Word) : (latchCommand c s).oggMissing = 0 := rfl
@[simp] theorem latchCommand_res (c : Word) : (latchCommand c s).res = .zero := rfl
@[simp] theorem latchCommand_fifo (c : Word) : (latchCommand c s).fifo = s.fifo := rfl
@[simp] theorem latchCommand_op (c : Word) : (latchCommand c s).op = s.op := rfl
@[simp] theorem latchCommand_havePrev (c : Word) : (latchCommand c s).havePrev = false := rfl
@[simp] theorem latchCommand_prevEnd (c : Word) : (latchCommand c s).prevEnd = 0 := rfl
@[simp] theorem latchCommand_prevPn (c : Word) : (latchCommand c s).prevPn = 0 := rfl
@[simp] theorem latchCommand_ibuf (c : Word) : (latchCommand c s).ibuf = s.ibuf := rfl
@[simp] theorem latchCommand_script (c : Word) : (latchCommand c s).script = s.script := rfl
@[simp] theorem latchCommand_replies (c : Word) : (latchCommand c s).replies = s.replies := rfl

/-! startEngine: the command starts (40_engine.md R151). -/

@[simp] theorem startEngine_params (c : Word) : (startEngine c s).params = s.params := rfl
@[simp] theorem startEngine_ie (c : Word) : (startEngine c s).ie = s.ie := rfl
@[simp] theorem startEngine_phase (c : Word) : (startEngine c s).phase = .busy := rfl
@[simp] theorem startEngine_done (c : Word) : (startEngine c s).done = s.done := rfl
@[simp] theorem startEngine_reject (c : Word) : (startEngine c s).reject = s.reject := rfl
@[simp] theorem startEngine_underflow (c : Word) : (startEngine c s).underflow = s.underflow := rfl
@[simp] theorem startEngine_code (c : Word) : (startEngine c s).code = s.code := rfl
@[simp] theorem startEngine_cmd (c : Word) : (startEngine c s).cmd = s.cmd := rfl
@[simp] theorem startEngine_bufLen (c : Word) : (startEngine c s).bufLen = s.bufLen := rfl
@[simp] theorem startEngine_arg0 (c : Word) : (startEngine c s).arg0 = s.arg0 := rfl
@[simp] theorem startEngine_arg1 (c : Word) : (startEngine c s).arg1 = s.arg1 := rfl
@[simp] theorem startEngine_off (c : Word) : (startEngine c s).off = s.off := rfl
@[simp] theorem startEngine_steps (c : Word) : (startEngine c s).steps = s.steps := rfl
@[simp] theorem startEngine_recCount (c : Word) : (startEngine c s).recCount = s.recCount := rfl
@[simp] theorem startEngine_truncCount (c : Word) : (startEngine c s).truncCount = s.truncCount := rfl
@[simp] theorem startEngine_invalidCount (c : Word) : (startEngine c s).invalidCount = s.invalidCount := rfl
@[simp] theorem startEngine_incompleteCount (c : Word) : (startEngine c s).incompleteCount = s.incompleteCount := rfl
@[simp] theorem startEngine_monoOk (c : Word) : (startEngine c s).monoOk = s.monoOk := rfl
@[simp] theorem startEngine_missingValid (c : Word) : (startEngine c s).missingValid = s.missingValid := rfl
@[simp] theorem startEngine_havePage (c : Word) : (startEngine c s).havePage = s.havePage := rfl
@[simp] theorem startEngine_oggMissing (c : Word) : (startEngine c s).oggMissing = s.oggMissing := rfl
@[simp] theorem startEngine_res (c : Word) : (startEngine c s).res = s.res := rfl
@[simp] theorem startEngine_fifo (c : Word) : (startEngine c s).fifo = s.fifo := rfl
@[simp] theorem startEngine_op (c : Word) : (startEngine c s).op = opcField c := rfl
@[simp] theorem startEngine_havePrev (c : Word) : (startEngine c s).havePrev = s.havePrev := rfl
@[simp] theorem startEngine_prevEnd (c : Word) : (startEngine c s).prevEnd = s.prevEnd := rfl
@[simp] theorem startEngine_prevPn (c : Word) : (startEngine c s).prevPn = s.prevPn := rfl
@[simp] theorem startEngine_ibuf (c : Word) : (startEngine c s).ibuf = s.ibuf := rfl
@[simp] theorem startEngine_script (c : Word) : (startEngine c s).script = s.script := rfl
@[simp] theorem startEngine_replies (c : Word) : (startEngine c s).replies = s.replies := rfl

/-! resetBlock: the reset event (70_reset_and_hazards.md R450). -/

@[simp] theorem resetBlock_params : (resetBlock s).params = s.params := rfl
@[simp] theorem resetBlock_ie : (resetBlock s).ie = State.reset.ie := rfl
@[simp] theorem resetBlock_phase : (resetBlock s).phase = State.reset.phase := rfl
@[simp] theorem resetBlock_done : (resetBlock s).done = State.reset.done := rfl
@[simp] theorem resetBlock_reject : (resetBlock s).reject = State.reset.reject := rfl
@[simp] theorem resetBlock_underflow : (resetBlock s).underflow = State.reset.underflow := rfl
@[simp] theorem resetBlock_code : (resetBlock s).code = State.reset.code := rfl
@[simp] theorem resetBlock_cmd : (resetBlock s).cmd = State.reset.cmd := rfl
@[simp] theorem resetBlock_bufLen : (resetBlock s).bufLen = State.reset.bufLen := rfl
@[simp] theorem resetBlock_arg0 : (resetBlock s).arg0 = State.reset.arg0 := rfl
@[simp] theorem resetBlock_arg1 : (resetBlock s).arg1 = State.reset.arg1 := rfl
@[simp] theorem resetBlock_off : (resetBlock s).off = State.reset.off := rfl
@[simp] theorem resetBlock_steps : (resetBlock s).steps = State.reset.steps := rfl
@[simp] theorem resetBlock_recCount : (resetBlock s).recCount = State.reset.recCount := rfl
@[simp] theorem resetBlock_truncCount : (resetBlock s).truncCount = State.reset.truncCount := rfl
@[simp] theorem resetBlock_invalidCount : (resetBlock s).invalidCount = State.reset.invalidCount := rfl
@[simp] theorem resetBlock_incompleteCount : (resetBlock s).incompleteCount = State.reset.incompleteCount := rfl
@[simp] theorem resetBlock_monoOk : (resetBlock s).monoOk = State.reset.monoOk := rfl
@[simp] theorem resetBlock_missingValid : (resetBlock s).missingValid = State.reset.missingValid := rfl
@[simp] theorem resetBlock_havePage : (resetBlock s).havePage = State.reset.havePage := rfl
@[simp] theorem resetBlock_oggMissing : (resetBlock s).oggMissing = State.reset.oggMissing := rfl
@[simp] theorem resetBlock_res : (resetBlock s).res = State.reset.res := rfl
@[simp] theorem resetBlock_fifo : (resetBlock s).fifo = State.reset.fifo := rfl
@[simp] theorem resetBlock_op : (resetBlock s).op = State.reset.op := rfl
@[simp] theorem resetBlock_havePrev : (resetBlock s).havePrev = State.reset.havePrev := rfl
@[simp] theorem resetBlock_prevEnd : (resetBlock s).prevEnd = State.reset.prevEnd := rfl
@[simp] theorem resetBlock_prevPn : (resetBlock s).prevPn = State.reset.prevPn := rfl
@[simp] theorem resetBlock_ibuf : (resetBlock s).ibuf = s.ibuf := rfl
@[simp] theorem resetBlock_script : (resetBlock s).script = s.script := rfl
@[simp] theorem resetBlock_replies : (resetBlock s).replies = s.replies := rfl

/-! clearStatus: a STATUS write (10_state.md R23). -/

@[simp] theorem clearStatus_params (v : Word) : (clearStatus v s).params = s.params := rfl
@[simp] theorem clearStatus_ie (v : Word) : (clearStatus v s).ie = s.ie := rfl
@[simp] theorem clearStatus_phase (v : Word) : (clearStatus v s).phase = s.phase := rfl
@[simp] theorem clearStatus_done (v : Word) : (clearStatus v s).done = (s.done && !v.getLsbD 1) := rfl
@[simp] theorem clearStatus_reject (v : Word) : (clearStatus v s).reject = (s.reject && !v.getLsbD 2) := rfl
@[simp] theorem clearStatus_underflow (v : Word) : (clearStatus v s).underflow = (s.underflow && !v.getLsbD 3) := rfl
@[simp] theorem clearStatus_code (v : Word) : (clearStatus v s).code = s.code := rfl
@[simp] theorem clearStatus_cmd (v : Word) : (clearStatus v s).cmd = s.cmd := rfl
@[simp] theorem clearStatus_bufLen (v : Word) : (clearStatus v s).bufLen = s.bufLen := rfl
@[simp] theorem clearStatus_arg0 (v : Word) : (clearStatus v s).arg0 = s.arg0 := rfl
@[simp] theorem clearStatus_arg1 (v : Word) : (clearStatus v s).arg1 = s.arg1 := rfl
@[simp] theorem clearStatus_off (v : Word) : (clearStatus v s).off = s.off := rfl
@[simp] theorem clearStatus_steps (v : Word) : (clearStatus v s).steps = s.steps := rfl
@[simp] theorem clearStatus_recCount (v : Word) : (clearStatus v s).recCount = s.recCount := rfl
@[simp] theorem clearStatus_truncCount (v : Word) : (clearStatus v s).truncCount = s.truncCount := rfl
@[simp] theorem clearStatus_invalidCount (v : Word) : (clearStatus v s).invalidCount = s.invalidCount := rfl
@[simp] theorem clearStatus_incompleteCount (v : Word) : (clearStatus v s).incompleteCount = s.incompleteCount := rfl
@[simp] theorem clearStatus_monoOk (v : Word) : (clearStatus v s).monoOk = s.monoOk := rfl
@[simp] theorem clearStatus_missingValid (v : Word) : (clearStatus v s).missingValid = s.missingValid := rfl
@[simp] theorem clearStatus_havePage (v : Word) : (clearStatus v s).havePage = s.havePage := rfl
@[simp] theorem clearStatus_oggMissing (v : Word) : (clearStatus v s).oggMissing = s.oggMissing := rfl
@[simp] theorem clearStatus_res (v : Word) : (clearStatus v s).res = s.res := rfl
@[simp] theorem clearStatus_fifo (v : Word) : (clearStatus v s).fifo = s.fifo := rfl
@[simp] theorem clearStatus_op (v : Word) : (clearStatus v s).op = s.op := rfl
@[simp] theorem clearStatus_havePrev (v : Word) : (clearStatus v s).havePrev = s.havePrev := rfl
@[simp] theorem clearStatus_prevEnd (v : Word) : (clearStatus v s).prevEnd = s.prevEnd := rfl
@[simp] theorem clearStatus_prevPn (v : Word) : (clearStatus v s).prevPn = s.prevPn := rfl
@[simp] theorem clearStatus_ibuf (v : Word) : (clearStatus v s).ibuf = s.ibuf := rfl
@[simp] theorem clearStatus_script (v : Word) : (clearStatus v s).script = s.script := rfl
@[simp] theorem clearStatus_replies (v : Word) : (clearStatus v s).replies = s.replies := rfl

/-! reply: what a host read returned. -/

@[simp] theorem reply_params (r : Reply) : (reply r s).params = s.params := rfl
@[simp] theorem reply_ie (r : Reply) : (reply r s).ie = s.ie := rfl
@[simp] theorem reply_phase (r : Reply) : (reply r s).phase = s.phase := rfl
@[simp] theorem reply_done (r : Reply) : (reply r s).done = s.done := rfl
@[simp] theorem reply_reject (r : Reply) : (reply r s).reject = s.reject := rfl
@[simp] theorem reply_underflow (r : Reply) : (reply r s).underflow = s.underflow := rfl
@[simp] theorem reply_code (r : Reply) : (reply r s).code = s.code := rfl
@[simp] theorem reply_cmd (r : Reply) : (reply r s).cmd = s.cmd := rfl
@[simp] theorem reply_bufLen (r : Reply) : (reply r s).bufLen = s.bufLen := rfl
@[simp] theorem reply_arg0 (r : Reply) : (reply r s).arg0 = s.arg0 := rfl
@[simp] theorem reply_arg1 (r : Reply) : (reply r s).arg1 = s.arg1 := rfl
@[simp] theorem reply_off (r : Reply) : (reply r s).off = s.off := rfl
@[simp] theorem reply_steps (r : Reply) : (reply r s).steps = s.steps := rfl
@[simp] theorem reply_recCount (r : Reply) : (reply r s).recCount = s.recCount := rfl
@[simp] theorem reply_truncCount (r : Reply) : (reply r s).truncCount = s.truncCount := rfl
@[simp] theorem reply_invalidCount (r : Reply) : (reply r s).invalidCount = s.invalidCount := rfl
@[simp] theorem reply_incompleteCount (r : Reply) : (reply r s).incompleteCount = s.incompleteCount := rfl
@[simp] theorem reply_monoOk (r : Reply) : (reply r s).monoOk = s.monoOk := rfl
@[simp] theorem reply_missingValid (r : Reply) : (reply r s).missingValid = s.missingValid := rfl
@[simp] theorem reply_havePage (r : Reply) : (reply r s).havePage = s.havePage := rfl
@[simp] theorem reply_oggMissing (r : Reply) : (reply r s).oggMissing = s.oggMissing := rfl
@[simp] theorem reply_res (r : Reply) : (reply r s).res = s.res := rfl
@[simp] theorem reply_fifo (r : Reply) : (reply r s).fifo = s.fifo := rfl
@[simp] theorem reply_op (r : Reply) : (reply r s).op = s.op := rfl
@[simp] theorem reply_havePrev (r : Reply) : (reply r s).havePrev = s.havePrev := rfl
@[simp] theorem reply_prevEnd (r : Reply) : (reply r s).prevEnd = s.prevEnd := rfl
@[simp] theorem reply_prevPn (r : Reply) : (reply r s).prevPn = s.prevPn := rfl
@[simp] theorem reply_ibuf (r : Reply) : (reply r s).ibuf = s.ibuf := rfl
@[simp] theorem reply_script (r : Reply) : (reply r s).script = s.script := rfl
@[simp] theorem reply_replies (r : Reply) : (reply r s).replies = s.replies ++ [r] := rfl

end Sys2Proof.Machine
end

