-- ==== Sys2Proof/Laws/Ops.lean ====
section
/-! SUPPORT. Everything each shared operation of an engine step can do: one inversion lemma per operation. -/

namespace Sys2Proof.Machine

/-- A committed step answers a next state only by taking effect or by being held, which changes nothing
(40_engine.md R160). -/
theorem commit_next {s t : State} {r : StepResult} :
    commit s r = .next t ↔ r = .done t ∨ (r = .held ∧ t = s) := by
  cases r <;> simp [commit, eq_comm]

/-- A committed step faults exactly where the step does. -/
theorem commit_fault {s : State} {r : StepResult} {f : Fault} : commit s r = .fault f ↔ r = .fault f := by
  cases r <;> simp [commit]

/-- No step of a command is refused. -/
theorem commit_not_refused (s : State) (r : StepResult) (why : Refusal) : commit s r ≠ .refused why := by
  cases r <;> simp [commit]

theorem withBytes_done {s t : State} {a n : Nat} {k : List Byte → StepResult} :
    withBytes s a n k = .done t ↔ ∃ bs, memRead s.ibuf a n = .ok bs ∧ k bs = .done t := by
  unfold withBytes
  split <;> simp_all

theorem withByte_done {s t : State} {a : Nat} {k : Byte → StepResult} :
    withByte s a k = .done t ↔ ∃ b, byteAt s.ibuf a = some b ∧ k b = .done t := by
  unfold withByte readByte
  cases byteAt s.ibuf a <;> simp

theorem withBytes_fault {s : State} {a n : Nat} {k : List Byte → StepResult} {f : Fault} :
    withBytes s a n k = .fault f ↔
      memRead s.ibuf a n = .error f ∨ ∃ bs, memRead s.ibuf a n = .ok bs ∧ k bs = .fault f := by
  unfold withBytes
  split <;> simp_all

theorem withByte_fault {s : State} {a : Nat} {k : Byte → StepResult} {f : Fault} :
    withByte s a k = .fault f ↔
      (byteAt s.ibuf a = none ∧ f = .unwrittenByte a) ∨ ∃ b, byteAt s.ibuf a = some b ∧ k b = .fault f := by
  unfold withByte readByte
  cases byteAt s.ibuf a <;> simp [eq_comm]

/-- Pushing never faults of itself (40_engine.md R160). -/
theorem push_fault {s : State} {record : List Word} {k : State → StepResult} {f : Fault} :
    push s record k = .fault f ↔
      s.fifo.length + record.length ≤ s.params.outDepth ∧ k (appendWords record s) = .fault f := by
  unfold push
  split <;> simp_all

theorem withBytes_eq {s : State} {a n : Nat} {k : List Byte → StepResult} {bs : List Byte}
    (h : memRead s.ibuf a n = .ok bs) : withBytes s a n k = k bs := by
  simp [withBytes, h]

theorem withByte_eq {s : State} {a : Nat} {k : Byte → StepResult} {b : Byte}
    (h : byteAt s.ibuf a = some b) : withByte s a k = k b := by
  simp [withByte, readByte, h]

/-- A push that takes effect had room for the whole record (40_engine.md R160). -/
theorem push_done {s t : State} {record : List Word} {k : State → StepResult} :
    push s record k = .done t ↔
      s.fifo.length + record.length ≤ s.params.outDepth ∧ k (appendWords record s) = .done t := by
  unfold push
  split <;> simp_all

/-- A one-shot's record: what the pushed and counted state is (40_engine.md R161, R162). -/
theorem pushOne_done {s t : State} {record : List Word} {invalid : Bool} {c : Code} :
    pushOne s record invalid c = .done t ↔
      s.fifo.length + record.length ≤ s.params.outDepth ∧
        t = finish c (countRecord false invalid (appendWords record s)) := by
  rw [pushOne, push_done, StepResult.done.injEq, eq_comm (a := t)]

/-- A scan's record: what the pushed, counted and chained state is (40_engine.md R157, R161, R162). -/
theorem pushHeader_done {s t : State} {record : Bool → List Word} {invalid : Bool} {size advance : Nat}
    {after : State → State} :
    pushHeader s record invalid size advance after = .done t ↔
      s.fifo.length + (record (incomplete s s.off.toNat)).length ≤ s.params.outDepth ∧
        t = setOff (s.off.toNat + advance) (after (chain s.off.toNat size
          (countRecord (incomplete s s.off.toNat) invalid
            (appendWords (record (incomplete s s.off.toNat)) (countStep s))))) := by
  rw [pushHeader, push_done, StepResult.done.injEq, eq_comm (a := t)]
  rfl

theorem packLe_length (bs : List Byte) : (packLe bs).length = (bs.length + 3) / 4 := by
  induction bs using packLe.induct with
  | case1 => simp [packLe]
  | case2 => simp [packLe]
  | case3 => simp [packLe]
  | case4 => simp [packLe]
  | case5 a b c d rest ih =>
    simp only [packLe, List.length_cons, ih]
    omega

end Sys2Proof.Machine
end

