-- ==== Sys2Proof/Laws/Step.lean ====
section
/-! SUPPORT. Everything an engine step can do, said once: the inversion of `exec` over all 19 commands, from which
the invariants and frames are read off. -/

namespace Sys2Proof.Machine

/-- What the flag bits of each record type stay below (30_encoding.md R111 to R114). -/
def FlagsDefined (type : Byte) (flags : BitVec 15) : Prop :=
  (type = 0x01 ∧ flags.toNat < 2 ^ 4) ∨ (type = 0x02 ∧ flags.toNat < 2 ^ 5) ∨
    (type = 0x03 ∧ flags.toNat < 2 ^ 4) ∨ (type = 0x04 ∧ flags.toNat = 0)

/-- A record the engine may push: 2 to 73 words, a TYPE of 0x01 to 0x04, no flag its type does not define, LEN its
length, INCOMPLETE as given (30_encoding.md R110 to R115). -/
def RecordShape (words : List Word) (inc : Bool) : Prop :=
  2 ≤ words.length ∧ words.length ≤ 73 ∧
    ∃ type flags rest, FlagsDefined type flags ∧ words = recordHeader type words.length flags inc :: rest

/-- Every way an engine step of the command `i` can take effect. -/
inductive StepEffect (i : Instr) (s : State) : State → Prop
  /-- A one-shot ends, with results and no record. -/
  | answered (c : Code) (r : Results) (walk : isWalk i = false) : StepEffect i s (finish c (setRes r s))
  /-- FIFO_CLEAR. -/
  | cleared (isClear : i = .fifoClear) : StepEffect i s (finish .ok { s with fifo := [] })
  /-- A one-shot pushes its one record and ends. -/
  | recorded (c : Code) (r : Results) (words : List Word) (invalid : Bool) (walk : isWalk i = false)
      (buf : readsBuf i = true) (shape : RecordShape words false)
      (room : s.fifo.length + words.length ≤ s.params.outDepth) :
      StepEffect i s (finish c (countRecord false invalid (appendWords words (setRes r s))))
  /-- A scan or search finds its loop condition false and ends. -/
  | ended (c : Code) (r : Results) (walk : isWalk i = true) (past : bufferLength s ≤ s.off.toNat + 9) :
      StepEffect i s (finish c (setRes r s))
  /-- A search finds its pattern and ends. -/
  | found (r : Results) (walk : isWalk i = true) (inside : s.off.toNat < bufferLength s) :
      StepEffect i s (finish .ok (setRes r (countStep s)))
  /-- An iteration finds nothing. -/
  | skipped (walk : isWalk i = true) (inside : s.off.toNat < bufferLength s) : StepEffect i s (noCandidate s)
  /-- An iteration finds a candidate with too few bytes left. -/
  | cut (walk : isWalk i = true) (inside : s.off.toNat < bufferLength s) : StepEffect i s (truncatedCandidate s)
  /-- MP3_SCAN finds a candidate whose frame size is 0. -/
  | rejected (isMp3 : i = .mp3Scan) (inside : s.off.toNat < bufferLength s) : StepEffect i s (invalidCandidate s)
  /-- ADTS_SCAN or MP3_SCAN pushes a frame header. -/
  | frame (words : List Word) (invalid : Bool) (size advance : Nat) (scan : i = .adtsScan ∨ i = .mp3Scan)
      (inside : s.off.toNat < bufferLength s) (shape : RecordShape words (incomplete s s.off.toNat))
      (room : s.fifo.length + words.length ≤ s.params.outDepth) (moves : 1 ≤ advance) (bound : advance ≤ 65307)
      (sizeBound : size ≤ 65307) :
      StepEffect i s (setOff (s.off.toNat + advance) (chain s.off.toNat size
        (countRecord (incomplete s s.off.toNat) invalid (appendWords words (countStep s)))))
  /-- OGG_SCAN pushes a page header. -/
  | page (words : List Word) (invalid : Bool) (size : Nat) (pageNum : Word) (scan : i = .oggScan)
      (inside : s.off.toNat < bufferLength s) (shape : RecordShape words (incomplete s s.off.toNat))
      (room : s.fifo.length + words.length ≤ s.params.outDepth) (least : 27 ≤ size) (bound : size ≤ 65307) :
      StepEffect i s (setOff (s.off.toNat + (size - s.params.oggAdvAdj)) (seqCheck pageNum (chain s.off.toNat size
        (countRecord (incomplete s s.off.toNat) invalid (appendWords words (countStep s))))))

/-- The meaning of every command is its engine step, committed. -/
theorem exec_eq_commit (i : Instr) (s : State) : exec i s = commit s (stepBody i s) := by cases i <;> rfl

theorem adtsFlags_lt (a b c d : Bool) : (0#11 ++ bit a ++ bit b ++ bit c ++ bit d).toNat < 2 ^ 4 := by
  revert a b c d; decide

theorem mpegFlags_lt (a b c d e : Bool) : (0#10 ++ bit a ++ bit b ++ bit c ++ bit d ++ bit e).toNat < 2 ^ 5 := by
  revert a b c d e; decide

theorem oggFlags_lt (a : Bool) (v : BitVec 3) : (0#11 ++ bit a ++ v).toNat < 2 ^ 4 := by
  revert a v; decide

theorem adtsRecord_shape (off : Nat) (h : AdtsHeader) (inc : Bool) : RecordShape (adtsRecord off h inc) inc :=
  ⟨by simp [adtsRecord], by simp [adtsRecord], 0x01, _, _, .inl ⟨rfl, adtsFlags_lt _ _ _ _⟩, rfl⟩

theorem mpegRecord_shape (off : Nat) (h : MpegHeader) (inc : Bool) : RecordShape (mpegRecord off h inc) inc :=
  ⟨by simp [mpegRecord], by simp [mpegRecord], 0x02, _, _, .inr (.inl ⟨rfl, mpegFlags_lt _ _ _ _ _⟩), rfl⟩

theorem lameRecord_shape (a : Nat) (window : List Byte) (h : window.length ≤ 138) :
    RecordShape (lameRecord a window) false := by
  have hl : (lameRecord a window).length = 2 + (window.length + 3) / 4 := by
    simp [lameRecord, packLe_length]; omega
  refine ⟨by omega, by omega, 0x04, 0, word a :: packLe window, .inr (.inr (.inr ⟨rfl, rfl⟩)), ?_⟩
  rw [hl]; rfl

theorem oggRecord_shape (length off : Nat) (p : OggPage) (h : p.segmentSizeTable.length = p.segments.toNat)
    (inc : Bool) : RecordShape (oggRecord length off p inc) inc := by
  have hs : p.segments.toNat < 256 := p.segments.isLt
  have hl : (oggRecord length off p inc).length = 9 + (p.segments.toNat + 3) / 4 := by
    simp [oggRecord, packLe_length, h]; omega
  rw [RecordShape, hl]
  exact ⟨by omega, by omega, 0x03, _, _, .inr (.inr (.inl ⟨rfl, oggFlags_lt _ _⟩)), rfl⟩

theorem byte_sum_le (bs : List Byte) : (bs.map fun b => b.toNat).sum ≤ 255 * bs.length := by
  induction bs with
  | nil => simp
  | cons b rest ih =>
    have hb : b.toNat < 256 := b.isLt
    simp only [List.map_cons, List.sum_cons, List.length_cons]
    omega

/-- An Ogg page is 27 to 65307 bytes (44_ogg.md R313). -/
theorem oggPageSize_bounds (p : OggPage) (h : p.segmentSizeTable.length = p.segments.toNat) :
    27 ≤ oggPageSize p ∧ oggPageSize p ≤ 65307 := by
  have hs : p.segments.toNat < 256 := p.segments.isLt
  have hb := byte_sum_le p.segmentSizeTable
  rw [h] at hb
  unfold oggPageSize
  constructor
  · omega
  · have : 255 * p.segments.toNat ≤ 255 * 255 := by omega
    omega

theorem bitrate_le (v : MpegVersion) (l : MpegLayer) (table : List Nat) (h : bitrateTable v l = some table) (k : Nat) :
    table.getD k 0 ≤ 448 := by
  have key : ∀ t ∈ [brV1L1, brV1L2, brV1L3, brV2L1, brV2L23], ∀ e ∈ t, e ≤ 448 := by decide
  have ht : table ∈ [brV1L1, brV1L2, brV1L3, brV2L1, brV2L23] := by
    cases v <;> cases l <;> simp_all [bitrateTable]
  by_cases hk : k < table.length
  · rw [List.getD_eq_getElem _ _ hk]
    exact key _ ht _ (List.getElem_mem hk)
  · rw [List.getD_eq_default _ _ (by omega)]
    omega

theorem mpegBitrate_le (h : MpegHeader) : mpegBitrate h ≤ 448000 := by
  unfold mpegBitrate
  split
  · omega
  · rename_i table ht
    split
    · omega
    · split
      · omega
      · have := bitrate_le _ _ _ ht (h.bitrateIndex.toNat - 1)
        omega

theorem mpegRate_cases (h : MpegHeader) : mpegRate h = -1 ∨ 8000 ≤ mpegRate h := by
  have key : ∀ v : MpegVersion, ∀ r : BitVec 2, mpegSampleRate v r = -1 ∨ 8000 ≤ mpegSampleRate v r := by
    intro v; cases v <;> decide
  exact key _ _

/-- Every MPEG-audio frame size is at most 8055 (43_mp3.md R265). -/
theorem mpegFrameSize_le (h : MpegHeader) : mpegFrameSize h ≤ 8055 := by
  unfold mpegFrameSize
  split
  · rename_i hp
    have hb := mpegBitrate_le h
    have hr : 8000 ≤ mpegRate h := by
      rcases mpegRate_cases h with h' | h'
      · omega
      · exact h'
    have : 144 * mpegBitrate h / (mpegRate h + 8) < 8056 := by
      apply Int.ediv_lt_of_lt_mul
      · omega
      · nlinarith
    omega
  · omega

theorem adtsAdvance_bounds (h : AdtsHeader) : 1 ≤ adtsAdvance h ∧ adtsAdvance h ≤ 8191 := by
  have := h.frameSize.isLt
  unfold adtsAdvance
  split <;> omega

theorem withPage_done {s t : State} {off : Nat} {page : OggPage → StepResult} {truncated : StepResult}
    (h : withPage s off page truncated = .done t) :
    truncated = .done t ∨
      ∃ p, p.segmentSizeTable.length = p.segments.toNat ∧ off + 27 ≤ bufferLength s ∧ page p = .done t := by
  unfold withPage at h
  split at h
  · rename_i h27
    obtain ⟨seg, hseg, h⟩ := withByte_done.1 h
    split at h
    · obtain ⟨fixed, hf, h⟩ := withBytes_done.1 h
      obtain ⟨table, ht, h⟩ := withBytes_done.1 h
      refine .inr ⟨_, ?_, h27, h⟩
      have hf' := memRead_ok.1 hf
      have ht' := memRead_ok.1 ht
      have hlast : byteAt s.ibuf (off + 5 + 21) = some (fixed[21]'(by omega)) := hf'.2 21 (by omega)
      have : fixed[21]'(by omega) = seg := by
        rw [show off + 5 + 21 = off + 26 by omega, hseg] at hlast
        exact (Option.some.inj hlast).symm
      have hsl : slice fixed 21 1 = [seg] := by
        unfold slice
        rw [List.drop_eq_getElem_cons (by omega : 21 < fixed.length), this]
        rfl
      simp only [oggDecode, ht'.1, leField, hsl, le, BitVec.toNat_ofNat]
      have := seg.isLt
      omega
    · exact .inl h
  · exact .inl h

theorem oneShot_sync {i : Instr} {s t : State} {n : Nat} {f : List Byte → Results} {r : Results} {P : Prop}
    [Decidable P] (walk : isWalk i = false)
    (h : (if P then StepResult.done (finish .truncated (setRes r s))
      else withBytes s (arg0Value s) n fun bs => .done (finish .ok (setRes (f bs) s))) = .done t) :
    StepEffect i s t := by
  split at h
  · cases h; exact .answered _ _ walk
  · obtain ⟨bs, _, h⟩ := withBytes_done.1 h
    cases h; exact .answered _ _ walk

theorem scanEnd_effect {i : Instr} {s : State} (c : Code) (walk : isWalk i = true)
    (past : bufferLength s ≤ s.off.toNat + 9) : StepEffect i s (finish c s) :=
  .ended c s.res walk past

theorem oneShot_plain {i : Instr} {s : State} (c : Code) (walk : isWalk i = false) : StepEffect i s (finish c s) :=
  .answered c s.res walk

theorem adtsDecode_effect {s t : State} (h : adtsDecodeBody s = .done t) : StepEffect .adtsDecode s t := by
  unfold adtsDecodeBody at h
  split at h
  · obtain ⟨bs, _, h⟩ := withBytes_done.1 h
    obtain ⟨room, rfl⟩ := pushOne_done.1 h
    exact .recorded _ s.res _ _ rfl rfl (adtsRecord_shape _ _ _) room
  · cases h; exact oneShot_plain _ rfl

theorem mp3Decode_effect {s t : State} (h : mp3DecodeBody s = .done t) : StepEffect .mp3Decode s t := by
  unfold mp3DecodeBody at h
  split at h
  · cases h; exact oneShot_plain _ rfl
  · obtain ⟨bs, _, h⟩ := withBytes_done.1 h
    obtain ⟨room, rfl⟩ := pushOne_done.1 h
    exact .recorded _ s.res _ _ rfl rfl (mpegRecord_shape _ _ _) room

theorem oggDecode_effect {s t : State} (h : oggDecodeBody s = .done t) : StepEffect .oggDecode s t := by
  unfold oggDecodeBody at h
  rcases withPage_done h with h | ⟨p, hp, _, h⟩
  · cases h; exact oneShot_plain _ rfl
  · obtain ⟨room, rfl⟩ := pushOne_done.1 h
    exact .recorded _ s.res _ _ rfl rfl (oggRecord_shape _ _ _ hp _) room

theorem lameWindow_effect {s t : State} (h : lameWindowBody s = .done t) : StepEffect .lameWindow s t := by
  unfold lameWindowBody at h
  split at h
  · cases h; exact .answered _ _ rfl
  · obtain ⟨bs, hbs, h⟩ := withBytes_done.1 h
    obtain ⟨room, rfl⟩ := pushOne_done.1 h
    have hl : bs.length ≤ 138 := by
      rw [(memRead_ok.1 hbs).1, lameCount]
      omega
    exact .recorded _ _ _ _ rfl rfl (lameRecord_shape _ _ hl) room

theorem adtsScan_effect {s t : State} (h : adtsScanBody s = .done t) : StepEffect .adtsScan s t := by
  unfold adtsScanBody at h
  split at h
  · rename_i hin
    have inside : s.off.toNat < bufferLength s := by omega
    unfold adtsScanIteration at h
    obtain ⟨_, _, h⟩ := withBytes_done.1 h
    split at h
    · split at h
      · obtain ⟨bs, _, h⟩ := withBytes_done.1 h
        obtain ⟨room, rfl⟩ := pushHeader_done.1 h
        have hb := adtsAdvance_bounds (adtsDecode bs)
        have hs := (adtsDecode bs).frameSize.isLt
        exact .frame _ _ _ _ (.inl rfl) inside (adtsRecord_shape _ _ _) room hb.1 (by omega) (by omega)
      · cases h; exact .cut rfl inside
    · cases h; exact .skipped rfl inside
  · cases h; exact scanEnd_effect _ rfl (by omega)

theorem mp3Scan_effect {s t : State} (h : mp3ScanBody s = .done t) : StepEffect .mp3Scan s t := by
  unfold mp3ScanBody at h
  split at h
  · rename_i hin
    have inside : s.off.toNat < bufferLength s := by omega
    unfold mp3ScanIteration at h
    obtain ⟨_, _, h⟩ := withBytes_done.1 h
    split at h
    · obtain ⟨bs, _, h⟩ := withBytes_done.1 h
      split at h
      · rename_i hpos
        obtain ⟨room, rfl⟩ := pushHeader_done.1 h
        have hb := mpegFrameSize_le (mpegDecode bs)
        exact .frame _ _ _ _ (.inr rfl) inside (mpegRecord_shape _ _ _) room hpos (by omega) (by omega)
      · cases h; exact .rejected rfl inside
    · cases h; exact .skipped rfl inside
  · cases h; exact scanEnd_effect _ rfl (by omega)

theorem oggScan_effect {s t : State} (h : oggScanBody s = .done t) : StepEffect .oggScan s t := by
  unfold oggScanBody at h
  split at h
  · rename_i hin
    have inside : s.off.toNat < bufferLength s := by omega
    unfold oggScanIteration at h
    obtain ⟨_, _, h⟩ := withBytes_done.1 h
    split at h
    · rcases withPage_done h with h | ⟨p, hp, _, h⟩
      · cases h; exact .cut rfl inside
      · obtain ⟨room, rfl⟩ := pushHeader_done.1 h
        have hb := oggPageSize_bounds p hp
        exact .page _ _ _ _ rfl inside (oggRecord_shape _ _ _ hp _) room hb.1 hb.2
    · cases h; exact .skipped rfl inside
  · cases h; exact scanEnd_effect _ rfl (by omega)

theorem id3Find_effect {s t : State} (h : id3FindBody s = .done t) : StepEffect .id3Find s t := by
  unfold id3FindBody at h
  split at h
  · rename_i hin
    have inside : s.off.toNat < bufferLength s := by omega
    unfold id3Iteration at h
    obtain ⟨_, _, h⟩ := withBytes_done.1 h
    obtain ⟨_, _, h⟩ := withBytes_done.1 h
    split at h
    · obtain ⟨_, _, h⟩ := withByte_done.1 h
      cases h; exact .found _ rfl inside
    · cases h; exact .skipped rfl inside
  · cases h; exact .ended _ _ rfl (by omega)

theorem embeddedToc_done {s t : State} {off : Nat} {r : Results} {k : Results → StepResult}
    (h : embeddedToc s off r k = .done t) : ∃ r', k r' = .done t := by
  unfold embeddedToc at h
  split at h
  · exact ⟨_, h⟩
  · split at h
    · exact ⟨_, h⟩
    · obtain ⟨_, _, h⟩ := withByte_done.1 h
      exact ⟨_, h⟩

theorem opusheadFind_effect {s t : State} (h : opusheadFindBody s = .done t) : StepEffect .opusheadFind s t := by
  unfold opusheadFindBody at h
  split at h
  · rename_i hin
    have inside : s.off.toNat < bufferLength s := by omega
    unfold opusheadIteration at h
    obtain ⟨_, _, h⟩ := withBytes_done.1 h
    split at h
    · split at h
      · obtain ⟨_, _, h⟩ := withBytes_done.1 h
        obtain ⟨_, h⟩ := embeddedToc_done h
        cases h; exact .found _ rfl inside
      · cases h; exact .cut rfl inside
    · cases h; exact .skipped rfl inside
  · cases h; exact .ended _ _ rfl (by omega)

/-- Everything an engine step that takes effect can do, for every command. -/
theorem stepBody_effect {i : Instr} {s t : State} (h : stepBody i s = .done t) : StepEffect i s t := by
  cases i with
  | nop => cases h; exact oneShot_plain _ rfl
  | fifoClear => cases h; exact .cleared rfl
  | extract => cases h; exact .answered _ _ rfl
  | extractBuf => exact oneShot_sync rfl h
  | adtsSync => exact oneShot_sync rfl h
  | adtsDecode => exact adtsDecode_effect h
  | adtsScan => exact adtsScan_effect h
  | mp3Sync => exact oneShot_sync rfl h
  | mp3Decode => exact mp3Decode_effect h
  | mp3Scan => exact mp3Scan_effect h
  | id3Find => exact id3Find_effect h
  | xingDetect =>
    simp only [stepBody, xingDetectBody] at h
    split at h
    · cases h; exact .answered _ _ rfl
    · obtain ⟨_, _, h⟩ := withBytes_done.1 h
      cases h; exact .answered _ _ rfl
  | lameWindow => exact lameWindow_effect h
  | oggSync => exact oneShot_sync rfl h
  | oggDecode => exact oggDecode_effect h
  | oggScan => exact oggScan_effect h
  | opusheadFind => exact opusheadFind_effect h
  | opustagsTest => exact oneShot_sync rfl h
  | tocDecode => cases h; exact .answered _ _ rfl

/-- Everything `exec` can answer as a next state: the step's effect, or nothing where the step is held. -/
theorem exec_next {i : Instr} {s t : State} (h : exec i s = .next t) :
    StepEffect i s t ∨ (stepBody i s = .held ∧ t = s) := by
  rw [exec_eq_commit, commit_next] at h
  exact h.imp_left stepBody_effect

end Sys2Proof.Machine
end

