-- ==== Sys2Proof/Laws/Moves.lean ====
section
/-! SUPPORT. Everything one move can do, said once: the inversion of `takeMove` and `step`, host moves included, from
which the invariants of every step are read off. -/

namespace Sys2Proof.Machine

/-- Every way a move can answer a next state. -/
inductive MoveEffect (s : State) : State → Prop
  /-- Nothing changes: an idle engine's turn, a held step, a write to a reserved slot. -/
  | unchanged : MoveEffect s s
  /-- A step of the running command takes effect. -/
  | ran (i : Instr) (t : State) (busy : s.phase = .busy) (running : runningCommand s = some i)
      (effect : StepEffect i s t) : MoveEffect s t
  /-- The reset input. -/
  | reset : MoveEffect s (resetBlock s)
  /-- A read that has no effect on the block. -/
  | read (r : Reply) : MoveEffect s (reply r s)
  /-- A read of OUT_DATA. -/
  | popped (r : Reply) : MoveEffect s (reply r (popOutData s))
  /-- A register write. -/
  | wrote (r : Reg) (v : Word) : MoveEffect s (writeReg r v s)
  /-- An IBUF port write. -/
  | ibufByte (a : Nat) (v : Byte) (inside : a < s.params.ibufCap) :
      MoveEffect s { s with ibuf := setByte s.ibuf a v }

theorem engineTurn_effect {s t : State} (h : engineTurn s = .next t) : MoveEffect s t := by
  unfold engineTurn at h
  split at h
  · cases h; exact .unchanged
  · rename_i busy
    split at h
    · rename_i i running
      rcases exec_next h with effect | ⟨_, rfl⟩
      · exact .ran i _ busy running effect
      · exact .unchanged
    · cases h

theorem regRead_effect {offset : BitVec 8} {bits : Nat} {s t : State} (h : regRead offset bits s = .next t) :
    MoveEffect s t := by
  unfold regRead at h
  split at h
  · split at h
    · rename_i r _
      cases h
      cases r <;> first | exact .read _ | exact .popped _
    · cases h; exact .read _
  · cases h

theorem regWrite_effect {offset : BitVec 8} {bits : Nat} {v : Word} {s t : State}
    (h : regWrite offset bits v s = .next t) : MoveEffect s t := by
  unfold regWrite at h
  split at h
  · split at h
    · cases h; exact .wrote _ _
    · cases h; exact .unchanged
  · cases h

theorem ibufRead_effect {a : Nat} {s t : State} (h : ibufRead a s = .next t) : MoveEffect s t := by
  unfold ibufRead at h
  split at h
  · split at h
    · cases h; exact .read _
    · cases h
  · cases h

theorem ibufWrite_effect {a : Nat} {v : Byte} {s t : State} (h : ibufWrite a v s = .next t) : MoveEffect s t := by
  unfold ibufWrite at h
  split at h
  · rename_i inside
    split at h
    · cases h
    · cases h; exact .ibufByte _ _ inside
  · cases h

/-- Everything a move can answer as a next state. -/
theorem takeMove_effect {m : Move} {s t : State} (h : takeMove m s = .next t) : MoveEffect s t := by
  cases m with
  | engine => exact engineTurn_effect h
  | reset => cases h; exact .reset
  | regRead offset bits => exact regRead_effect h
  | regWrite offset bits v => exact regWrite_effect h
  | ibufRead a => exact ibufRead_effect h
  | ibufWrite a v => exact ibufWrite_effect h

/-- Everything a step can answer as a next state: a move's effect, in the state whose script the move has left. -/
theorem step_effect {s t : State} (h : step s = .next t) :
    MoveEffect s t ∨ ∃ rest, MoveEffect { s with script := rest } t := by
  unfold step nextMove at h
  split at h
  · exact .inl (engineTurn_effect h)
  · exact .inr ⟨_, takeMove_effect h⟩

end Sys2Proof.Machine
end

