-- ==== Sys2Proof/Laws/Observation.lean ====
section
/-! SUPPORT. The words a move adds to the FIFO, as the observation of a command collects them
(70_reset_and_hazards.md R473): a host move adds none, and an engine step exactly the record it appends. -/

namespace Sys2Proof.Claims

open Sys2Proof.Machine

theorem wordsPushed_of_append {s t : State} {words : List Word} (h : t.fifo = s.fifo ++ words) :
    wordsPushed s t = words := by
  simp [wordsPushed, h]

theorem wordsPushed_of_shrink {s t : State} (h : t.fifo.length ≤ s.fifo.length) : wordsPushed s t = [] := by
  simpa [wordsPushed] using h

/-- A register write never adds a word. -/
theorem writeReg_fifo_le (r : Reg) (v : Word) (s : State) : (writeReg r v s).fifo.length ≤ s.fifo.length := by
  cases r <;> simp only [writeReg, writeCtrl, writeCmd, acceptCommand, whenIdle] <;> (repeat' split) <;>
    simp [State.reset]

theorem popOutData_fifo_le (s : State) : (popOutData s).fifo.length ≤ s.fifo.length := by
  unfold popOutData
  split <;> simp_all

/-- A move adds words to the FIFO only as a step of the running command. -/
theorem wordsPushed_host {s t : State} (h : MoveEffect s t) :
    wordsPushed s t = [] ∨ ∃ i, runningCommand s = some i ∧ StepEffect i s t := by
  cases h with
  | unchanged => exact .inl (wordsPushed_of_shrink (Nat.le_refl _))
  | ran i t _ running effect => exact .inr ⟨i, running, effect⟩
  | reset => exact .inl (wordsPushed_of_shrink (Nat.zero_le _))
  | read r => exact .inl (wordsPushed_of_shrink (Nat.le_refl _))
  | popped r => exact .inl (wordsPushed_of_shrink (popOutData_fifo_le s))
  | wrote r v => exact .inl (wordsPushed_of_shrink (writeReg_fifo_le r v s))
  | ibufByte a v _ => exact .inl (wordsPushed_of_shrink (Nat.le_refl _))

/-- A step of the running command adds no word or one whole record. -/
theorem wordsPushed_step {i : Instr} {s t : State} (h : StepEffect i s t) :
    wordsPushed s t = [] ∨ ∃ inc, RecordShape (wordsPushed s t) inc := by
  cases h with
  | recorded c r words invalid _ _ shape _ =>
    exact .inr ⟨_, by rw [wordsPushed_of_append (words := words) (by simp)]; exact shape⟩
  | frame words invalid size advance _ _ shape _ _ _ _ =>
    exact .inr ⟨_, by rw [wordsPushed_of_append (words := words) (by simp)]; exact shape⟩
  | page words invalid size pageNum _ _ shape _ _ _ =>
    exact .inr ⟨_, by rw [wordsPushed_of_append (words := words) (by simp)]; exact shape⟩
  | _ => exact .inl (wordsPushed_of_shrink (by simp [noCandidate, truncatedCandidate, invalidCandidate]))

end Sys2Proof.Claims
end

