-- ==== Sys2Proof/Laws/PerInstr.lean ====
section
/-! SUPPORT. Per-instruction facts about the encoding: the word of every command is a legal command word whose RSVD
field is 0 (30_encoding.md R100 to R102). -/

namespace Sys2Proof.Laws.EncodedWord

/-- The command's word is legal and its reserved field is 0. -/
def Statement (i : Instr) : Prop := wordWellFormed (encode i) = true ∧ rsvdField (encode i) = 0

theorem nop : Statement .nop := by unfold Statement; decide
theorem fifoClear : Statement .fifoClear := by unfold Statement; decide
theorem extract : Statement .extract := by unfold Statement; decide
theorem extractBuf : Statement .extractBuf := by unfold Statement; decide
theorem adtsSync : Statement .adtsSync := by unfold Statement; decide
theorem adtsDecode : Statement .adtsDecode := by unfold Statement; decide
theorem adtsScan : Statement .adtsScan := by unfold Statement; decide
theorem mp3Sync : Statement .mp3Sync := by unfold Statement; decide
theorem mp3Decode : Statement .mp3Decode := by unfold Statement; decide
theorem mp3Scan : Statement .mp3Scan := by unfold Statement; decide
theorem id3Find : Statement .id3Find := by unfold Statement; decide
theorem xingDetect : Statement .xingDetect := by unfold Statement; decide
theorem lameWindow : Statement .lameWindow := by unfold Statement; decide
theorem oggSync : Statement .oggSync := by unfold Statement; decide
theorem oggDecode : Statement .oggDecode := by unfold Statement; decide
theorem oggScan : Statement .oggScan := by unfold Statement; decide
theorem opusheadFind : Statement .opusheadFind := by unfold Statement; decide
theorem opustagsTest : Statement .opustagsTest := by unfold Statement; decide
theorem tocDecode : Statement .tocDecode := by unfold Statement; decide

end Sys2Proof.Laws.EncodedWord
end

