-- ==== Sys2Proof/Machine/HostText.lean ====
section
/-! DEFINITION. The text of a host program (30_encoding.md R105, R106): one operation a line, mnemonics in upper case,
numbers decimal or `0x` hex, byte lists as hex pairs (00_scope.md R12). Text is a list of characters. -/

namespace Sys2Proof.Machine

/-- The mnemonics of 30_encoding.md R101. -/
def mnemonicText : List (Instr × List Char) :=
  [(.nop, ['N', 'O', 'P']),
   (.fifoClear, ['F', 'I', 'F', 'O', '_', 'C', 'L', 'E', 'A', 'R']),
   (.extract, ['E', 'X', 'T', 'R', 'A', 'C', 'T']),
   (.extractBuf, ['E', 'X', 'T', 'R', 'A', 'C', 'T', '_', 'B', 'U', 'F']),
   (.adtsSync, ['A', 'D', 'T', 'S', '_', 'S', 'Y', 'N', 'C']),
   (.adtsDecode, ['A', 'D', 'T', 'S', '_', 'D', 'E', 'C', 'O', 'D', 'E']),
   (.adtsScan, ['A', 'D', 'T', 'S', '_', 'S', 'C', 'A', 'N']),
   (.mp3Sync, ['M', 'P', '3', '_', 'S', 'Y', 'N', 'C']),
   (.mp3Decode, ['M', 'P', '3', '_', 'D', 'E', 'C', 'O', 'D', 'E']),
   (.mp3Scan, ['M', 'P', '3', '_', 'S', 'C', 'A', 'N']),
   (.id3Find, ['I', 'D', '3', '_', 'F', 'I', 'N', 'D']),
   (.xingDetect, ['X', 'I', 'N', 'G', '_', 'D', 'E', 'T', 'E', 'C', 'T']),
   (.lameWindow, ['L', 'A', 'M', 'E', '_', 'W', 'I', 'N', 'D', 'O', 'W']),
   (.oggSync, ['O', 'G', 'G', '_', 'S', 'Y', 'N', 'C']),
   (.oggDecode, ['O', 'G', 'G', '_', 'D', 'E', 'C', 'O', 'D', 'E']),
   (.oggScan, ['O', 'G', 'G', '_', 'S', 'C', 'A', 'N']),
   (.opusheadFind, ['O', 'P', 'U', 'S', 'H', 'E', 'A', 'D', '_', 'F', 'I', 'N', 'D']),
   (.opustagsTest, ['O', 'P', 'U', 'S', 'T', 'A', 'G', 'S', '_', 'T', 'E', 'S', 'T']),
   (.tocDecode, ['T', 'O', 'C', '_', 'D', 'E', 'C', 'O', 'D', 'E'])]

/-- The register names of 10_state.md R20. -/
def registerText : List (Reg × List Char) :=
  [(.ctrl, ['C', 'T', 'R', 'L']),
   (.status, ['S', 'T', 'A', 'T', 'U', 'S']),
   (.cmd, ['C', 'M', 'D']),
   (.bufLen, ['B', 'U', 'F', '_', 'L', 'E', 'N']),
   (.arg0, ['A', 'R', 'G', '0']),
   (.arg1, ['A', 'R', 'G', '1']),
   (.off, ['O', 'F', 'F']),
   (.steps, ['S', 'T', 'E', 'P', 'S']),
   (.recCount, ['R', 'E', 'C', '_', 'C', 'O', 'U', 'N', 'T']),
   (.truncCount, ['T', 'R', 'U', 'N', 'C', '_', 'C', 'O', 'U', 'N', 'T']),
   (.invalidCount, ['I', 'N', 'V', 'A', 'L', 'I', 'D', '_', 'C', 'O', 'U', 'N', 'T']),
   (.incompleteCount, ['I', 'N', 'C', 'O', 'M', 'P', 'L', 'E', 'T', 'E', '_', 'C', 'O', 'U', 'N', 'T']),
   (.oggSeq, ['O', 'G', 'G', '_', 'S', 'E', 'Q']),
   (.oggMissing, ['O', 'G', 'G', '_', 'M', 'I', 'S', 'S', 'I', 'N', 'G']),
   (.outLevel, ['O', 'U', 'T', '_', 'L', 'E', 'V', 'E', 'L']),
   (.outData, ['O', 'U', 'T', '_', 'D', 'A', 'T', 'A']),
   (.res0, ['R', 'E', 'S', '0']),
   (.res1, ['R', 'E', 'S', '1']),
   (.res2, ['R', 'E', 'S', '2']),
   (.res3, ['R', 'E', 'S', '3']),
   (.res4, ['R', 'E', 'S', '4']),
   (.res5, ['R', 'E', 'S', '5']),
   (.res6, ['R', 'E', 'S', '6']),
   (.res7, ['R', 'E', 'S', '7'])]

/-- The entry of a name table whose text is the given one. -/
def named {α : Type} (table : List (α × List Char)) (text : List Char) : Option α :=
  (table.find? fun e => e.2 == text).map fun e => e.1

/-- A digit's value, hex letters of either case. -/
def digitValue (c : Char) : Option Nat :=
  if 48 ≤ c.toNat ∧ c.toNat ≤ 57 then some (c.toNat - 48)
  else if 65 ≤ c.toNat ∧ c.toNat ≤ 70 then some (c.toNat - 55)
  else if 97 ≤ c.toNat ∧ c.toNat ≤ 102 then some (c.toNat - 87)
  else none

/-- Digits in a base, on top of the value read so far. -/
def digits (base : Nat) : List Char → Nat → Option Nat
  | [], v => some v
  | c :: rest, v =>
    match digitValue c with
    | some d => if d < base then digits base rest (v * base + d) else none
    | none => none

/-- An operand: decimal, or hex after `0x` (R105). -/
def number : List Char → Option Nat
  | [] => none
  | ['0', 'x'] => none
  | '0' :: 'x' :: rest => digits 16 rest 0
  | cs => digits 10 cs 0

/-- An operand that fits its field, and no other (00_scope.md R10: a value that does not fit is never stored). -/
def numberBelow (bound : Nat) (cs : List Char) : Option Nat := (number cs).filter fun n => decide (n < bound)

/-- A 32-bit operand. -/
def wordOperand (cs : List Char) : Option Word := (numberBelow (2 ^ 32) cs).map word

/-- A byte of a byte list: two hex digits (00_scope.md R12). -/
def hexPair (cs : List Char) : Option Byte :=
  if cs.length = 2 then (digits 16 cs 0).map fun n => BitVec.ofNat 8 n else none

/-- A line's words: split at blanks, a comma a word of its own. -/
def words : List Char → List (List Char)
  | [] => []
  | ' ' :: rest => words rest
  | ',' :: rest => [','] :: words rest
  | c :: rest =>
    match rest, words rest with
    | d :: _, w :: ws => if d = ' ' ∨ d = ',' then [c] :: w :: ws else (c :: w) :: ws
    | _, ws => [c] :: ws

/-- A byte list, every byte of it. -/
def byteList : List (List Char) → Option (List Byte)
  | [] => some []
  | w :: rest => (hexPair w).bind fun b => (byteList rest).map fun bs => b :: bs

/-- `name=value` for a one-letter name. -/
def assigned (name : Char) : List Char → Option (List Char)
  | c :: '=' :: rest => if c = name then some rest else none
  | _ => none

/-- The ARG1 fields of a command line, `w=W, s=S[, n=N]`; N is 1 to 4 and defaults to 1 (R104, R106). -/
def extractFields (w s : List Char) (n : Option (List Char)) : Option ExtractFields :=
  ((assigned 'w' w).bind (numberBelow 64)).bind fun wv =>
    ((assigned 's' s).bind (numberBelow 64)).bind fun sv =>
      match n with
      | none => some ⟨BitVec.ofNat 6 wv, BitVec.ofNat 6 sv, 0⟩
      | some t =>
        ((assigned 'n' t).bind (numberBelow 5)).bind fun nv =>
          if 1 ≤ nv then some ⟨BitVec.ofNat 6 wv, BitVec.ofNat 6 sv, BitVec.ofNat 2 (nv - 1)⟩ else none

/-- The commands whose rules give them no operand (40_engine.md R164, R165). -/
def withoutOperands (i : Instr) : Bool := i == .nop || i == .fifoClear

/-- A command line after its mnemonic (R105, R106). A mnemonic with nothing after it is a command line for NOP and
FIFO_CLEAR, as 95_test_vectors.md V-ENG-1 and V-ENG-2 write them, and for no other command; the rules do not say so.
DESIGN CHOICE, log entry 16. -/
def commandLine (polls : Nat) (i : Instr) : List (List Char) → Option Line
  | [] => if withoutOperands i then some (.bareCommand i polls) else none
  | [a] => (wordOperand a).map fun v => .command i v none polls
  | [a, [','], w, [','], s] =>
    (wordOperand a).bind fun v => (extractFields w s none).map fun f => .command i v (some f) polls
  | [a, [','], w, [','], s, [','], n] =>
    (wordOperand a).bind fun v => (extractFields w s (some n)).map fun f => .command i v (some f) polls
  | _ => none

/-- A line's words as an operation; `polls` is how many STATUS reads its `wait_done` makes, which the text does not
say (log entry 11). -/
def operation (polls : Nat) : List (List Char) → Option Line
  | [] => none
  | ['w', 'r'] :: name :: [','] :: value :: rest =>
    if rest = [] then (named registerText name).bind fun r => (wordOperand value).map fun v => .wr r v else none
  | [['r', 'd'], name] => (named registerText name).map .rd
  | ['i', 'b'] :: addr :: [','] :: bytes =>
    (number addr).bind fun a => (byteList bytes).map fun bs => .ib a bs
  | [['w', 'a', 'i', 't', '_', 'd', 'o', 'n', 'e']] => some (.waitDone polls)
  | [['d', 'r', 'a', 'i', 'n'], k] => (number k).map .drain
  | ['s', 'e', 't', 'b', 'u', 'f'] :: addr :: [','] :: bytes =>
    (number addr).bind fun a => (byteList bytes).map fun bs => .setbuf a bs
  | name :: operands => (named mnemonicText name).bind fun i => commandLine polls i operands

/-- One line of text: a comment from `;` on, or an operation (R105). -/
def parseLine (polls : Nat) (text : List Char) : Option Line :=
  match text with
  | ';' :: rest => some (.comment (String.ofList rest))
  | _ => operation polls (words text)

end Sys2Proof.Machine
end

