-- ==== Sys2Proof/Tests/Slice0.lean ====
section
/-! SUPPORT. The model's own tests: each command's word, the well-formedness checks, one-step results taken from
spec/95_test_vectors.md and the examples of the rules, and for every obligation with hypotheses a state that meets
them. -/

namespace Sys2Proof.Tests

open Sys2Proof Sys2Proof.Machine Sys2Proof.Claims

/-- Written bytes from an address on. -/
def cells : Nat → List Nat → Memory
  | _, [] => []
  | a, b :: rest => (a, BitVec.ofNat 8 b) :: cells (a + 1) rest

/-- A block of 512 bytes and 80 FIFO words whose buffer holds `bytes`, all of them below `L`. -/
def block (bytes : List Nat) : State :=
  { State.reset with params := ⟨512, 80, 0, none⟩, ibuf := cells 0 bytes, bufLen := word bytes.length }

/-- That block running the command `i`. -/
def running (i : Instr) (bytes : List Nat) : State := startEngine (encode i) (latchCommand (encode i) (block bytes))

/-- What a function says of the next state, none at a fault or a refusal. -/
def after {α : Type} (o : Host.Outcome State Fault Refusal) (f : State → α) : Option α :=
  match o with
  | .next t => some (f t)
  | _ => none

/-- There is a next state, and it passes a check. -/
theorem next_of_after {o : Host.Outcome State Fault Refusal} {p : State → Bool} (h : after o p = some true) :
    ∃ t, o = .next t ∧ p t = true := by
  cases o <;> simp_all [after]

/-! Buffers of spec/95_test_vectors.md. -/

/-- Frame A of section 2.3 without its trailing zeros. -/
def headA : List Nat := [0xFF, 0xF1, 0x50, 0x80, 0x02, 0x1F, 0xFC]

/-- Page Q of section 2.5 without its body: 3 segments `0A FF 00`. -/
def pageQ : List Nat :=
  [0x4F, 0x67, 0x67, 0x53, 0, 0, 0x08, 0x07, 0x06, 0x05, 0x04, 0x03, 0x02, 0x01] ++
  [0x34, 0x12, 0, 0, 0x05, 0, 0, 0, 0xA1, 0xB2, 0xC3, 0xD4, 0x03, 0x0A, 0xFF, 0]

/-- The 27-byte page of V-OGG-1. -/
def pageOne : List Nat :=
  [0x4F, 0x67, 0x67, 0x53, 0, 0x02, 0, 0, 0, 0, 0, 0, 0, 0] ++
  [0x04, 0x03, 0x02, 0x01, 0, 0, 0, 0, 0xAA, 0xBB, 0xCC, 0xDD, 0]

/-- The OpusHead of V-OPUS-6. -/
def head : List Nat :=
  [0x4F, 0x70, 0x75, 0x73, 0x48, 0x65, 0x61, 0x64, 0x01, 0x02, 0x38, 0x01, 0x80, 0xBB, 0, 0, 0, 0, 0]

/-- The tag header of V-MP3-14 and ten zero bytes. -/
def tag : List Nat := [0x49, 0x44, 0x33, 0x04, 0, 0, 0, 0, 0x01, 0] ++ zeros 10
where zeros (n : Nat) : List Nat := List.replicate n 0

/-- `n` zero bytes. -/
abbrev zeros (n : Nat) : List Nat := List.replicate n 0

/-! Each command's word, written out from 30_encoding.md R101: OPC in the low eight bits, RSVD 0 above. -/

theorem test_word_nop : decode (0#24 ++ 0b00000000#8) = .command .nop ∧ encode .nop = 0x00000000 := by decide
theorem test_word_fifoClear : decode (0#24 ++ 0b00000001#8) = .command .fifoClear ∧ encode .fifoClear = 0x00000001 := by decide
theorem test_word_extract : decode (0#24 ++ 0b00001000#8) = .command .extract ∧ encode .extract = 0x00000008 := by decide
theorem test_word_extractBuf : decode (0#24 ++ 0b00001001#8) = .command .extractBuf ∧ encode .extractBuf = 0x00000009 := by decide
theorem test_word_adtsSync : decode (0#24 ++ 0b00010000#8) = .command .adtsSync ∧ encode .adtsSync = 0x00000010 := by decide
theorem test_word_adtsDecode : decode (0#24 ++ 0b00010001#8) = .command .adtsDecode ∧ encode .adtsDecode = 0x00000011 := by decide
theorem test_word_adtsScan : decode (0#24 ++ 0b00010010#8) = .command .adtsScan ∧ encode .adtsScan = 0x00000012 := by decide
theorem test_word_mp3Sync : decode (0#24 ++ 0b00100000#8) = .command .mp3Sync ∧ encode .mp3Sync = 0x00000020 := by decide
theorem test_word_mp3Decode : decode (0#24 ++ 0b00100001#8) = .command .mp3Decode ∧ encode .mp3Decode = 0x00000021 := by decide
theorem test_word_mp3Scan : decode (0#24 ++ 0b00100010#8) = .command .mp3Scan ∧ encode .mp3Scan = 0x00000022 := by decide
theorem test_word_id3Find : decode (0#24 ++ 0b00100011#8) = .command .id3Find ∧ encode .id3Find = 0x00000023 := by decide
theorem test_word_xingDetect : decode (0#24 ++ 0b00100100#8) = .command .xingDetect ∧ encode .xingDetect = 0x00000024 := by decide
theorem test_word_lameWindow : decode (0#24 ++ 0b00100101#8) = .command .lameWindow ∧ encode .lameWindow = 0x00000025 := by decide
theorem test_word_oggSync : decode (0#24 ++ 0b00110000#8) = .command .oggSync ∧ encode .oggSync = 0x00000030 := by decide
theorem test_word_oggDecode : decode (0#24 ++ 0b00110001#8) = .command .oggDecode ∧ encode .oggDecode = 0x00000031 := by decide
theorem test_word_oggScan : decode (0#24 ++ 0b00110010#8) = .command .oggScan ∧ encode .oggScan = 0x00000032 := by decide
theorem test_word_opusheadFind : decode (0#24 ++ 0b01000000#8) = .command .opusheadFind ∧ encode .opusheadFind = 0x00000040 := by decide
theorem test_word_opustagsTest : decode (0#24 ++ 0b01000001#8) = .command .opustagsTest ∧ encode .opustagsTest = 0x00000041 := by decide
theorem test_word_tocDecode : decode (0#24 ++ 0b01000010#8) = .command .tocDecode ∧ encode .tocDecode = 0x00000042 := by decide

theorem test_table_word : decodeTableWord 32 0x12 = some .adtsScan ∧ decodeTableWord 32 0x112 = none := by decide

/-! Well-formedness, an ill-formed term for each check. V-ENG-5, V-ENG-4, and 00_scope.md R7's four ranges. -/

theorem test_reserved_bits : reservedBitsZero 0x00000112 = false ∧ wordWellFormed 0x00000112 = false ∧
    decode 0x00000112 = .illegal .reservedBits := by decide

theorem test_unknown_opcode : opcodeKnown 0x00000002 = false ∧ wordWellFormed 0x00000002 = false ∧
    decode 0x00000002 = .illegal (.unknownOpcode 0x02) := by decide

theorem test_legal_word : wordWellFormed 0x00000042 = true := by decide

theorem test_no_buffer : (Params.mk 0 73 0 none).wellFormed = false := by decide

theorem test_large_buffer : (Params.mk (2 ^ 31 + 1) 73 0 none).wellFormed = false := by decide

theorem test_shallow_fifo : (Params.mk 1 72 0 none).wellFormed = false := by decide

theorem test_odd_adjustment : (Params.mk 1 73 2 none).wellFormed = false := by decide

theorem test_legal_params : (Params.mk (2 ^ 31) 73 1 (some 19)).wellFormed = true := by decide

/-! Memory: a write replaces a byte in place and keeps addresses rising; an unwritten byte faults
(93_implementation_defined.md U1). -/

theorem test_write_in_order : setByte (setByte (setByte [] 5 1) 3 2) 5 7 = [(3, 2), (5, 7)] := by decide

theorem test_unwritten : memRead (cells 0 [1, 2]) 1 2 = .error (.unwrittenByte 2) := by decide

theorem test_out_of_order : Memory.wf [(3, 0), (3, 1)] = false ∧ Memory.below [(4, 0)] 4 = false := by decide

/-! One step of each command, from spec/95_test_vectors.md. -/

/-- V-ENG-1, the engine's step. -/
theorem test_nop :
    after (exec .nop (running .nop [])) (fun t => (t.phase, statusWord t false)) = some (.idle, 0x002) := by decide

/-- V-ENG-2: a FIFO of 12 words. -/
theorem test_fifo_clear :
    after (exec .fifoClear { running .fifoClear [] with fifo := List.replicate 12 9 }) (fun t => (t.fifo, t.code)) =
      some ([], .ok) := by decide

/-- V-BIT-1: `EXTRACT 0xA5, w=3, s=2`. -/
theorem test_extract :
    after (exec .extract { running .extract [] with arg0 := 0xA5, arg1 := 0x00000203 }) (fun t => (t.res.r0, t.code)) =
      some (1, .ok) := by decide

/-- V-BIT-3: `EXTRACT 0xDEADBEEF, w=8, s=28`. -/
theorem test_extract_truncates :
    after (exec .extract { running .extract [] with arg0 := 0xDEADBEEF, arg1 := 0x00001C08 }) (fun t => (t.res.r0, t.code)) =
      some (0x0000000D, .ok) := by decide

/-- V-BIT-7: `EXTRACT_BUF 3, w=13, s=5, n=3`. -/
theorem test_extract_buf :
    after (exec .extractBuf { running .extractBuf headA with arg0 := 3, arg1 := 0x0002050D })
      (fun t => (t.res.r0, t.res.r1, t.code)) = some (16, 0x0080021F, .ok) := by decide

/-- V-BIT-11: `EXTRACT_BUF 5, w=8, s=0, n=4`. -/
theorem test_extract_buf_truncated :
    after (exec .extractBuf { running .extractBuf headA with arg0 := 5, arg1 := 0x00030008 })
      (fun t => (t.res.r0, t.res.r1, t.code)) = some (0, 0, .truncated) := by decide

/-- V-ADTS-1: 0xF9 after 0xFF. -/
theorem test_adts_sync :
    after (exec .adtsSync (running .adtsSync [0xFF, 0xF9])) (fun t => (t.res.r0, t.code)) = some (1, .ok) := by decide

/-- V-ADTS-1b: 0xF2 after 0xFF. -/
theorem test_adts_sync_rejects :
    after (exec .adtsSync (running .adtsSync [0xFF, 0xF2])) (fun t => (t.res.r0, t.code)) = some (0, .ok) := by decide

/-- V-ADTS-3: a header with a CRC. -/
theorem test_adts_decode :
    after (exec .adtsDecode (running .adtsDecode ([0xFF, 0xF0, 0x50, 0x80, 0x02, 0x9F, 0xFC, 0x12, 0x34] ++ zeros 10)))
      (fun t => (t.fifo, t.recCount, t.invalidCount)) =
      some ([0x00010601, 0, 0x09101110, 0x07FF0014, 0x00001234, 44100], 1, 0) := by decide

/-- V-ADTS-4: sampling-frequency index 15. -/
theorem test_adts_decode_invalid :
    after (exec .adtsDecode (running .adtsDecode ([0xFF, 0xF1, 0x7C, 0x80, 0x02, 0x1F, 0xFC] ++ zeros 12)))
      (fun t => (t.fifo, t.invalidCount)) = some ([0x00020601, 0, 0x071013D8, 0x07FF0010, 0, 0xFFFFFFFF], 1) := by decide

/-- V-ADTS-11, its first step: the record at 0, OFF 16. -/
theorem test_adts_scan :
    after (exec .adtsScan (running .adtsScan (headA ++ zeros 9 ++ headA ++ zeros 12)))
      (fun t => (t.fifo, t.off, t.steps, t.prevEnd)) =
      some ([0x00000601, 0, 0x07101118, 0x07FF0010, 0, 44100], 16, 1, 16) := by decide

/-- V-ADTS-8, its first step: frame size 0 moves OFF by 1. -/
theorem test_adts_scan_size_zero :
    after (exec .adtsScan (running .adtsScan ([0xFF, 0xF1, 0x50, 0x80, 0, 0x1F, 0xFC] ++ zeros 12)))
      (fun t => (t.fifo, t.off, t.invalidCount)) =
      some ([0x00040601, 0, 0x07101118, 0x07FF0000, 0, 44100], 1, 1) := by decide

/-- V-MP3-9: MP3_SYNC gives 1 for `FF E0`. -/
theorem test_mp3_sync :
    after (exec .mp3Sync (running .mp3Sync [0xFF, 0xE0])) (fun t => t.res.r0) = some 1 := by decide

/-- R260's vector `22 18`. -/
theorem test_mp3_sync_rejects :
    after (exec .mp3Sync (running .mp3Sync [0x22, 0x18])) (fun t => t.res.r0) = some 0 := by decide

/-- V-MP3-3: V2 L3 with padding. -/
theorem test_mp3_decode :
    after (exec .mp3Decode (running .mp3Decode [0xFF, 0xF3, 0x92, 0x00])) (fun t => (t.fifo, t.invalidCount)) =
      some ([0x00000602, 0, 0x00000939, 80000, 22050, 522], 0) := by decide

/-- V-MP3-8: version and layer both Invalid. -/
theorem test_mp3_decode_invalid :
    after (exec .mp3Decode (running .mp3Decode [0xFF, 0xE8, 0x90, 0x00])) (fun t => (t.fifo, t.invalidCount)) =
      some ([0x000F0602, 0, 0x0000012F, 0xFFFFFFFF, 0xFFFFFFFF, 0], 1) := by decide

/-- V-MP3-11, its first step. -/
theorem test_mp3_scan :
    after (exec .mp3Scan (running .mp3Scan [0xFF, 0xFB, 0x90, 0x64])) (fun t => (t.fifo, t.off, t.recCount)) =
      some ([0x00000602, 0, 0x00000138, 128000, 44100, 417], 417, 1) := by decide

/-- V-MP3-12, its first step: not pushed. -/
theorem test_mp3_scan_free_format :
    after (exec .mp3Scan (running .mp3Scan ([0xFF, 0xFB, 0, 0] ++ zeros 4))) (fun t => (t.fifo, t.off, t.invalidCount)) =
      some ([], 1, 1) := by decide

/-- V-MP3-14: BEYOND_END. -/
theorem test_id3_find :
    after (exec .id3Find (running .id3Find tag)) (fun t => (t.res, t.steps, t.code)) =
      some (⟨0, 138, 0x02000400, 128, 0, 0, 0, 0⟩, 1, .ok) := by decide

/-- V-MP3-13, its last step. -/
theorem test_id3_find_miss :
    after (exec .id3Find { running .id3Find (zeros 100) with off := 91, steps := 91 })
      (fun t => (t.res.r0, t.res.r1, t.steps, t.off, t.code)) = some (0xFFFFFFFF, 0xFFFFFFFF, 91, 91, .notFound) := by decide

/-- V-MP3-18: "Info". -/
theorem test_xing_detect :
    after (exec .xingDetect (running .xingDetect (zeros 36 ++ [0x49, 0x6E, 0x66, 0x6F]))) (fun t => (t.res.r0, t.code)) =
      some (2, .ok) := by decide

/-- V-MP3-19: "xing". -/
theorem test_xing_detect_case :
    after (exec .xingDetect (running .xingDetect (zeros 36 ++ [0x78, 0x69, 0x6E, 0x67]))) (fun t => t.res.r0) = some 0 := by decide

/-- R275 and R114 by hand: L = 45 leaves 6 bytes of the window. -/
theorem test_lame_window :
    after (exec .lameWindow (running .lameWindow (zeros 39 ++ [1, 2, 3, 4, 5, 6])))
      (fun t => (t.fifo, t.res.r0, t.res.r1, t.code)) =
      some ([0x00000404, 39, 0x04030201, 0x00000605], 39, 6, .truncated) := by decide

/-- V-MP3-23: L = 39. -/
theorem test_lame_window_empty :
    after (exec .lameWindow (running .lameWindow (zeros 39))) (fun t => (t.fifo, t.res.r0, t.res.r1, t.recCount, t.code)) =
      some ([], 39, 0, 0, .truncated) := by decide

/-- R310: the magic. -/
theorem test_ogg_sync :
    after (exec .oggSync (running .oggSync [0x4F, 0x67, 0x67, 0x53, 0x00])) (fun t => (t.res.r0, t.code)) = some (1, .ok) := by decide

/-- V-OGG-6: version byte 1. -/
theorem test_ogg_sync_rejects :
    after (exec .oggSync (running .oggSync [0x4F, 0x67, 0x67, 0x53, 0x01])) (fun t => (t.res.r0, t.code)) = some (0, .ok) := by decide

/-- V-OGG-1. -/
theorem test_ogg_decode :
    after (exec .oggDecode (running .oggDecode pageOne)) (fun t => t.fifo) =
      some [0x00020903, 0, 27, 0, 0, 0x01020304, 0, 0xDDCCBBAA, 0x00000200] := by decide

/-- V-OGG-3 with the header alone: BODY_TRUNC. -/
theorem test_ogg_decode_body :
    after (exec .oggDecode (running .oggDecode pageQ)) (fun t => (t.fifo, t.invalidCount)) =
      some ([0x00080A03, 0, 295, 0x05060708, 0x01020304, 0x1234, 5, 0xD4C3B2A1, 0x00000003, 0x0000FF0A], 1) := by decide

/-- P3's third page, 83 at page number 3 after 1: here at offset 0, page number 5 after 1, which is not 2. -/
theorem test_ogg_scan_missing :
    after (exec .oggScan { running .oggScan pageQ with havePage := true, prevPn := 1 })
      (fun t => (oggSeqWord t, t.oggMissing, t.off, t.prevPn)) = some (7, 2, 295, 5) := by decide

/-- R318 with OGG_ADV_ADJ = 1, as V-OGG-8. -/
theorem test_ogg_scan_adjusted :
    after (exec .oggScan { running .oggScan pageOne with params := ⟨512, 80, 1, none⟩ }) (fun t => (t.off, t.prevEnd)) =
      some (26, 27) := by decide

/-- V-OPUS-6. -/
theorem test_opushead_find :
    after (exec .opusheadFind (running .opusheadFind head)) (fun t => (t.res, t.steps, t.code)) =
      some (⟨1, 0, 0x201, 312, 48000, 0, 0, 0⟩, 1, .ok) := by decide

/-- P4 with OPUS_TOC_OFFSET = 19, the byte there 0x4F, and P4's gain bytes `00 FF`. -/
theorem test_opushead_find_toc :
    after (exec .opusheadFind
      { running .opusheadFind ([0x4F, 0x70, 0x75, 0x73, 0x48, 0x65, 0x61, 0x64, 1, 2, 0x38, 1, 0x80, 0xBB, 0, 0, 0, 0xFF, 0, 0x4F]) with
        params := ⟨512, 80, 0, some 19⟩ })
      (fun t => (t.res.r5, t.res.r6, t.res.r7)) = some (0xFFFFFF00, 0x0074A109, 0x00004F01) := by decide

/-- V-OPUS-8. -/
theorem test_opustags_test :
    after (exec .opustagsTest (running .opustagsTest [0x4F, 0x70, 0x75, 0x73, 0x54, 0x61, 0x67, 0x73])) (fun t => (t.res.r0, t.code)) =
      some (1, .ok) := by decide

/-- V-OPUS-9. -/
theorem test_opustags_test_short :
    after (exec .opustagsTest (running .opustagsTest [0x4F, 0x70, 0x75, 0x73, 0x54, 0x61, 0x67])) (fun t => (t.res.r0, t.code)) =
      some (0, .truncated) := by decide

/-- V-OPUS-4. -/
theorem test_toc_decode :
    after (exec .tocDecode { running .tocDecode [] with arg0 := 0xFF }) (fun t => (t.res.r0, t.res.r1)) =
      some (0x0074A25F, 0xFF) := by decide

/-- V-OPUS-5: ARG0 bits 31:8 are ignored. -/
theorem test_toc_decode_ignores :
    after (exec .tocDecode { running .tocDecode [] with arg0 := 0x104 }) (fun t => (t.res.r0, t.res.r1)) =
      some (0x00145000, 0x04) := by decide

/-! The host's moves. -/

/-- V-ENG-3: BUF_LEN 0xFFFFFFFF. -/
theorem test_range :
    after (takeMove (.regWrite 0x08 32 0x12) { block [] with bufLen := 0xFFFFFFFF })
      (fun t => (statusWord t (stallBit t), t.steps, t.off)) = some (0x042, 0, 0) := by decide

/-- V-ENG-4. -/
theorem test_illegal :
    after (takeMove (.regWrite 0x08 32 0x00000002) (block [])) (fun t => (statusWord t (stallBit t), t.cmd)) =
      some (0x032, 0x00000002) := by decide

/-- V-ENG-6. -/
theorem test_underflow :
    after (takeMove (.regRead 0x3C 32) (block [])) (fun t => (t.replies, t.underflow)) = some ([.word 0], true) := by decide

/-- V-ENG-9. -/
theorem test_soft_reset :
    after (takeMove (.regWrite 0x00 32 0x3) { block [7] with ie := true, done := true }) (fun t => (t.ie, t.done, t.ibuf)) =
      some (false, false, [(0, 7)]) := by decide

/-- P5: the engine held, STATUS 0x305. -/
theorem test_stall :
    statusWord { running .adtsScan (headA ++ zeros 12) with fifo := List.replicate 75 0, reject := true } true = 0x305 ∧
      stallBit { running .adtsScan (headA ++ zeros 12) with fifo := List.replicate 75 0 } = true ∧
      stallBit { running .adtsScan (headA ++ zeros 12) with fifo := List.replicate 74 0 } = false := by decide

/-- R454, R455: from reset, two IBUF bytes and BUF_LEN establish the launch premises, and the run has ended. -/
theorem test_boot :
    after (core.run 3 { block [] with script := ibMoves 0 [1, 2] ++ [writeMove .bufLen 2] })
      (fun t => (decide (Launch t []), decide (RunEnded t))) = some (true, true) := by decide

/-- V-MP3-11's first frame scanned while the host pops a word between the steps: the six words are observed, popped or not. -/
theorem test_observe :
    observe 4 { running .mp3Scan [0xFF, 0xFB, 0x90, 0x64] with script := [.engine, .regRead 0x3C 32] } =
      some { code := .ok, off := 417, steps := 1, recCount := 1, truncCount := 0, invalidCount := 0, incompleteCount := 0,
             oggSeq := 0, oggMissing := 0, res := .zero, records := [0x00000602, 0, 0x00000138, 128000, 44100, 417] } := by decide

/-- R453: a command abandoned by a soft reset never reaches `finish`, and there is nothing to observe. -/
theorem test_observe_aborted :
    observe 4 { running .mp3Scan [0xFF, 0xFB, 0x90, 0x64] with script := [.engine, .regWrite 0x00 32 2] } = none := by decide

/-- The very next step runs the word placed. -/
theorem test_fetch_word :
    after (step ((block [0xFF, 0xF9]).withFetchWord 32 0x10)) (fun t => (t.res.r0, t.code)) = some (1, .ok) := by decide

/-- R105's example `EXTRACT_BUF 3, w=13, s=5, n=3`. -/
theorem test_line :
    (parseLine 1 ['E', 'X', 'T', 'R', 'A', 'C', 'T', '_', 'B', 'U', 'F', ' ', '3', ',', ' ', 'w', '=', '1', '3']
      |>.map lineMoves) = none ∧
    (parseLine 1 (['E', 'X', 'T', 'R', 'A', 'C', 'T', '_', 'B', 'U', 'F', ' ', '3', ',', ' '] ++
        ['w', '=', '1', '3', ',', ' ', 's', '=', '5', ',', ' ', 'n', '=', '3'])).map lineMoves =
      some [.regWrite 0x10 32 3, .regWrite 0x14 32 0x0002050D, .regWrite 0x08 32 0x09, .regRead 0x04 32,
        .regWrite 0x04 32 2] := by decide

/-- V-ENG-1 and V-ENG-2 write the mnemonic alone (log entry 16); no other command is written so. -/
theorem test_bare_line :
    (parseLine 0 ['N', 'O', 'P']).map lineMoves = some [.regWrite 0x08 32 0x00, .regWrite 0x04 32 2] ∧
    (parseLine 0 ['F', 'I', 'F', 'O', '_', 'C', 'L', 'E', 'A', 'R']).map lineMoves =
      some [.regWrite 0x08 32 0x01, .regWrite 0x04 32 2] ∧
    parseLine 0 ['E', 'X', 'T', 'R', 'A', 'C', 'T'] = none := by decide

/-- R106: `setbuf 0, FF F1`. -/
theorem test_setbuf :
    (parseLine 0 ['s', 'e', 't', 'b', 'u', 'f', ' ', '0', ',', ' ', 'F', 'F', ' ', 'F', '1']).map lineMoves =
      some [.ibufWrite 0 0xFF, .ibufWrite 1 0xF1, .regWrite 0x0C 32 2] := by decide

/-- R106: `drain 2`, and `wr CMD, 0x12` of P5. -/
theorem test_drain :
    (parseLine 0 ['d', 'r', 'a', 'i', 'n', ' ', '2']).map lineMoves = some [.regRead 0x3C 32, .regRead 0x3C 32] ∧
    (parseLine 0 ['w', 'r', ' ', 'C', 'M', 'D', ',', ' ', '0', 'x', '1', '2']).map lineMoves = some [.regWrite 0x08 32 0x12] := by decide

/-! Witnesses: states and operands that meet the hypotheses of each obligation, clause by clause, at the boundary of
each range. -/

/-- 93_implementation_defined.md U1: BUF_LEN 2 over one written byte. -/
theorem witness_fault :
    exec .adtsSync { running .adtsSync [0xFF] with bufLen := 2 } = .fault (.unwrittenByte 1) := by rfl

/-- LegalCommandIsAccepted: a buffer exactly IBUF_CAP long, and a command that does not read IBUF. -/
theorem witness_accept :
    (block []).phase = .idle ∧ ¬ (readsBuf .adtsSync = true ∧ (512 : Nat) < len { block [] with bufLen := 512 }) ∧
      ¬ (readsBuf .nop = true ∧ (512 : Nat) < len { block [] with bufLen := 513 }) := by decide

/-- IllegalCommandEndsAtOnce. -/
theorem witness_illegal :
    (block []).phase = .idle ∧ wordWellFormed 0x00000100 = false ∧ wordWellFormed 0x00000043 = false := by decide

/-- LongBufferEndsInRange: one byte more than IBUF_CAP. -/
theorem witness_range :
    (block []).phase = .idle ∧ readsBuf .extractBuf = true ∧
      { block [] with bufLen := 513 }.params.ibufCap < len { block [] with bufLen := 513 } := by decide

/-- BusyCommandIsRejected. -/
theorem witness_busy :
    (running .adtsScan []).phase = .busy := by decide

/-- OutDataReadPops: one word, and none. -/
theorem witness_out_data :
    { block [] with fifo := [5] }.fifo = 5 :: [] ∧ (block []).fifo = [] := by decide

/-- RegisterAccessRules: its clauses at their boundaries. -/
theorem witness_access :
    ((0x01#8).toNat % 4 ≠ 0 ∨ 32 ≠ 32) ∧ ((0x00#8).toNat % 4 ≠ 0 ∨ 8 ≠ 32) ∧
      ((0x60#8).toNat % 4 = 0 ∧ 0x60 ≤ (0x60#8).toNat) ∧ ((0xFC#8).toNat % 4 = 0 ∧ 0x60 ≤ (0xFC#8).toNat) ∧
      ((0x5C#8).toNat % 4 = 0 ∧ (0x5C#8).toNat < 0x60 ∧ (0x5C#8).toNat ≠ 0x3C) ∧
      ((0x18#8).toNat % 4 = 0 ∧ 0x18 ≤ (0x18#8).toNat ∧ (0x18#8).toNat ≤ 0x5C) ∧
      (0x18 ≤ (0x5C#8).toNat ∧ (0x5C#8).toNat ≤ 0x5C) := by decide

/-- RegisterReadsReturn: the first, the STATUS and the last row of its list. -/
theorem witness_register_reads :
    ∀ p ∈ [((0x00 : BitVec 8), BitVec.ofNat 32 (flag ((block [7]).ie = true))), (0x04, regValue .status (block [7])),
        (0x5C, (block [7]).res.r7)],
      p ∈ [(0x00, BitVec.ofNat 32 (flag ((block [7]).ie = true))),
        (0x04, regValue .status (block [7])),
        (0x08, (block [7]).cmd),
        (0x0C, (block [7]).bufLen),
        (0x10, (block [7]).arg0),
        (0x14, (block [7]).arg1),
        (0x18, (block [7]).off),
        (0x1C, (block [7]).steps),
        (0x20, (block [7]).recCount),
        (0x24, (block [7]).truncCount),
        (0x28, (block [7]).invalidCount),
        (0x2C, (block [7]).incompleteCount),
        (0x30, BitVec.ofNat 32 (flag ((block [7]).monoOk = true)
          + flag ((block [7]).missingValid = true) * 2
          + flag ((block [7]).havePage = true) * 4)),
        (0x34, if (block [7]).missingValid then (block [7]).oggMissing else 0),
        (0x38, BitVec.ofNat 32 (block [7]).fifo.length),
        (0x40, (block [7]).res.r0),
        (0x44, (block [7]).res.r1),
        (0x48, (block [7]).res.r2),
        (0x4C, (block [7]).res.r3),
        (0x50, (block [7]).res.r4),
        (0x54, (block [7]).res.r5),
        (0x58, (block [7]).res.r6),
        (0x5C, (block [7]).res.r7)] := by
  intro p hp
  simp only [List.mem_cons, List.not_mem_nil, or_false] at hp
  rcases hp with rfl | rfl | rfl <;> simp only [List.mem_cons, true_or, or_true]

/-- IbufPortMovesOneByte: the last byte, the bytes on either side of `L`, and the first byte outside. -/
theorem witness_ibuf_port :
    ((511 : Nat) < (running .adtsScan headA).params.ibufCap ∧ ¬ ((running .adtsScan headA).phase = .busy ∧ 511 < len (running .adtsScan headA))) ∧
      ¬ ((running .adtsScan headA).phase = .busy ∧ 7 < len (running .adtsScan headA)) ∧
      ((6 : Nat) < (running .adtsScan headA).params.ibufCap ∧ (running .adtsScan headA).phase = .busy ∧ 6 < len (running .adtsScan headA)) ∧
      (block []).params.ibufCap ≤ 512 ∧ byteAt (block headA).ibuf 6 = some 0xFC ∧ byteAt (block headA).ibuf 7 = none := by decide

/-- StepRunsTheDecodedCommand: a running command with no move left, and the engine's and a host's move first. -/
theorem witness_step :
    (running .nop []).phase = .busy ∧ decode (BitVec.setWidth 32 (running .nop []).op) = .command .nop ∧
      (running .nop []).script = [] ∧ { running .nop [] with script := [.engine] }.script = .engine :: [] ∧
      { block [] with script := [.reset] }.script = .reset :: [] ∧ (block []).phase = .idle ∧ (block []).script = [] := by decide

/-- StallExactlyWhenHeld, held and not held. -/
theorem witness_stall :
    (running .adtsScan (headA ++ zeros 12)).phase = .busy ∧ runningCommand (running .adtsScan (headA ++ zeros 12)) = some .adtsScan ∧
      (running .adtsScan (headA ++ zeros 12)).script = [] := by decide

/-- EveryCommandStepCompletes: room for exactly 73 words and `L` exactly IBUF_CAP. -/
theorem witness_completes :
    BufferReady { block headA with params := ⟨7, 80, 0, none⟩, fifo := List.replicate 7 0 } ∧
      Room { block headA with params := ⟨7, 80, 0, none⟩, fifo := List.replicate 7 0 } 73 := by decide

/-- EveryCommandStepCompletes: the byte at `L - 1` never written, a flags byte never written under a matching ID3 pattern, an embedded TOC byte never written, and none unwritten below `L`. -/
theorem witness_unwritten :
    firstUnwritten .adtsSync { running .adtsSync [0xFF] with bufLen := 2 } = some 1 ∧ 1 ∈ bytesRead .adtsSync { running .adtsSync [0xFF] with bufLen := 2 } ∧
      firstUnwritten .id3Find { running .id3Find (tag.take 10) with ibuf := cells 0 (tag.take 5) ++ cells 6 (zeros 4) } = some 5 ∧
      firstUnwritten .opusheadFind { running .opusheadFind head with bufLen := 20, params := ⟨512, 80, 0, some 19⟩ } = some 19 ∧
      firstUnwritten .oggDecode { running .oggDecode (pageQ.take 29) with bufLen := 30 } = some 29 ∧
      firstUnwritten .oggScan (running .oggScan pageQ) = none := by decide

/-- CommandsLeaveOtherStateAlone and StepsPushOneWholeRecord: a step that pushes. -/
theorem witness_frame :
    ∃ t, exec .adtsDecode (running .adtsDecode (headA ++ zeros 12)) = .next t ∧
      (decide (t.fifo ≠ []) && !isWalk .adtsDecode && decide (Instr.adtsDecode ≠ .oggScan)) = true := next_of_after (by decide)

/-- FullFifoHoldsTheStep: one word too few for ADTS_DECODE and ADTS_SCAN. -/
theorem witness_full_adts :
    Written { running .adtsScan (headA ++ zeros 12) with fifo := List.replicate 75 0 } 0 9 ∧
      0 + 19 ≤ len { running .adtsScan (headA ++ zeros 12) with fifo := List.replicate 75 0 } ∧
      AdtsSync { running .adtsScan (headA ++ zeros 12) with fifo := List.replicate 75 0 } 0 ∧
      ¬ Room { running .adtsScan (headA ++ zeros 12) with fifo := List.replicate 75 0 } 6 := by decide

/-- FullFifoHoldsTheStep: one word too few for MP3_DECODE and MP3_SCAN. -/
theorem witness_full_mp3 :
    Written { running .mp3Scan [0xFF, 0xFB, 0x90, 0x64] with fifo := List.replicate 75 0 } 0 4 ∧
      0 + 4 ≤ len { running .mp3Scan [0xFF, 0xFB, 0x90, 0x64] with fifo := List.replicate 75 0 } ∧
      MpegSync { running .mp3Scan [0xFF, 0xFB, 0x90, 0x64] with fifo := List.replicate 75 0 } 0 ∧
      0 < frameSize { running .mp3Scan [0xFF, 0xFB, 0x90, 0x64] with fifo := List.replicate 75 0 } 0 ∧
      ¬ Room { running .mp3Scan [0xFF, 0xFB, 0x90, 0x64] with fifo := List.replicate 75 0 } 6 := by decide

/-- FullFifoHoldsTheStep: one word too few for LAME_WINDOW's whole window, and for a clipped window of one byte. -/
theorem witness_full_lame :
    (138 = min (0 + 177) (len { running .lameWindow (zeros 177) with fifo := List.replicate 44 0 }) - (0 + 39) ∧
        Written { running .lameWindow (zeros 177) with fifo := List.replicate 44 0 } 39 138 ∧
        ¬ Room { running .lameWindow (zeros 177) with fifo := List.replicate 44 0 } (2 + (138 + 3) / 4)) ∧
      (1 = min (0 + 177) (len { running .lameWindow (zeros 40) with fifo := List.replicate 78 0 }) - (0 + 39) ∧
        Written { running .lameWindow (zeros 40) with fifo := List.replicate 78 0 } 39 1 ∧
        ¬ Room { running .lameWindow (zeros 40) with fifo := List.replicate 78 0 } (2 + (1 + 3) / 4)) := by decide +kernel

/-- FullFifoHoldsTheStep: one word too few for OGG_DECODE and OGG_SCAN. -/
theorem witness_full_ogg :
    Written { running .oggScan pageQ with fifo := List.replicate 71 0 } 0 (27 + segments { running .oggScan pageQ with fifo := List.replicate 71 0 } 0) ∧
      0 + 27 + segments { running .oggScan pageQ with fifo := List.replicate 71 0 } 0 ≤ len { running .oggScan pageQ with fifo := List.replicate 71 0 } ∧
      OggMagic { running .oggScan pageQ with fifo := List.replicate 71 0 } 0 ∧
      ¬ Room { running .oggScan pageQ with fifo := List.replicate 71 0 } (9 + (segments { running .oggScan pageQ with fifo := List.replicate 71 0 } 0 + 3) / 4) := by decide

/-- UndrainedFifoHangs. -/
theorem witness_hang :
    Hung { running .adtsScan (headA ++ zeros 12) with fifo := List.replicate 75 0 } := by decide

/-- NopRunsFromIdle and FifoClearEmptiesTheFifo. -/
theorem witness_from_idle :
    (block []).phase = .idle ∧
      { block [] with script := [.regWrite 0x08 32 0x00000000, .engine] }.script = [.regWrite 0x08 32 0x00000000, .engine] ∧
      { block [] with script := [.regWrite 0x08 32 0x00000001, .engine] }.script = [.regWrite 0x08 32 0x00000001, .engine] := by decide

/-- ExtractionLaw: `w + s` one above `k`, `s = k`, and `w = 0`. -/
theorem witness_extraction :
    (0xA5 : Nat) < 2 ^ 8 ∧ 8 < 6 + 3 ∧ 8 ≤ 8 ∧ (0 : Nat) = 0 := by decide

/-- ExtractBufWritesTheField: a span that ends at `L`, and one byte past it. -/
theorem witness_extract_buf :
    3 = { running .extractBuf headA with arg0 := 4, arg1 := 0x00020000 }.arg1.toNat / 2 ^ 16 % 4 + 1 ∧
      { running .extractBuf headA with arg0 := 4, arg1 := 0x00020000 }.arg0.toNat + 3 ≤ len { running .extractBuf headA with arg0 := 4, arg1 := 0x00020000 } ∧
      Written { running .extractBuf headA with arg0 := 4, arg1 := 0x00020000 } 4 3 ∧
      len { running .extractBuf headA with arg0 := 5, arg1 := 0x00020000 } < { running .extractBuf headA with arg0 := 5, arg1 := 0x00020000 }.arg0.toNat + 3 := by decide

/-- AdtsSyncAcceptsFourPatterns and Mp3SyncChecksElevenBits: two bytes. -/
theorem witness_sync :
    0 + 2 ≤ len (block [0xFF, 0xF1]) ∧ Written (block [0xFF, 0xF1]) 0 2 ∧ AdtsSync (block [0xFF, 0xF1]) 0 ∧ MpegSync (block [0xFF, 0xF1]) 0 := by decide

/-- MagicTestsCompareEveryByte: exactly 5 and exactly 8 bytes. -/
theorem witness_magic :
    0 + 5 ≤ len (block (pageOne.take 5)) ∧ Written (block (pageOne.take 5)) 0 5 ∧
      0 + 8 ≤ len (block (head.take 8)) ∧ Written (block (head.take 8)) 0 8 := by decide

/-- XingDetectReadsOffset36: exactly 40 bytes. -/
theorem witness_xing :
    0 + 40 ≤ len (block (zeros 40)) ∧ Written (block (zeros 40)) (0 + 36) 4 := by decide

/-- ShortOneShotsAreTruncated: one byte too few for each. -/
theorem witness_short :
    len (block [0]) < 0 + 2 ∧ len (block (zeros 4)) < 0 + 5 ∧ len (block (zeros 7)) < 0 + 8 ∧ len (block (zeros 39)) < 0 + 40 ∧
      len (block (zeros 18)) < 0 + 19 ∧ len (block (zeros 3)) < 0 + 4 ∧ len (block (zeros 26)) < 0 + 27 ∧
      (0 + 27 ≤ len (block (pageQ.take 29)) ∧ Written (block (pageQ.take 29)) (0 + 26) 1 ∧
        len (block (pageQ.take 29)) < 0 + 27 + segments (block (pageQ.take 29)) 0) := by decide

/-- LameWindowIsClipped: one byte, the whole window, and none. -/
theorem witness_lame :
    (1 = min (0 + 177) (len (block (zeros 40))) - 39 ∧ Written (block (zeros 40)) 39 1 ∧ Room (block (zeros 40)) (2 + (1 + 3) / 4)) ∧
      (138 = min (0 + 177) (len (block (zeros 177))) - 39 ∧ Written (block (zeros 177)) 39 138 ∧ Room (block (zeros 177)) (2 + (138 + 3) / 4)) ∧
      0 = min (0 + 177) (len (block (zeros 39))) - 39 := by decide +kernel

/-- AdtsDecodePushesTheHeader: exactly 19 bytes. -/
theorem witness_adts_decode :
    0 + 19 ≤ len (block (headA ++ zeros 12)) ∧ Written (block (headA ++ zeros 12)) 0 9 ∧ Room (block (headA ++ zeros 12)) 6 := by decide

/-- Mp3DecodePushesTheHeader: exactly 4 bytes. -/
theorem witness_mp3_decode :
    0 + 4 ≤ len (block (zeros 4)) ∧ Written (block (zeros 4)) 0 4 ∧ Room (block (zeros 4)) 6 := by decide

/-- OggDecodePushesThePage: a header that ends at `L`. -/
theorem witness_ogg_decode :
    0 + 27 + segments (block pageQ) 0 ≤ len (block pageQ) ∧ Written (block pageQ) 0 (27 + segments (block pageQ) 0) ∧
      Room (block pageQ) (9 + (segments (block pageQ) 0 + 3) / 4) := by decide

/-- WalksEndPastTheBuffer: each loop condition false by one. -/
theorem witness_ends :
    len (block (zeros 7)) ≤ 0 + 7 ∧ len (block (zeros 3)) < 0 + 4 ∧ len (block (zeros 4)) < 0 + 5 ∧
      len (block (zeros 9)) < 0 + 10 ∧ len (block (zeros 7)) < 0 + 8 := by decide

/-- WalksStepOverNonMatches: each loop condition true by one, and no pattern. -/
theorem witness_non_match :
    (0 + 7 < len (block (zeros 8)) ∧ Written (block (zeros 8)) 0 2 ∧ ¬ AdtsSync (block (zeros 8)) 0) ∧
      (0 + 4 ≤ len (block (zeros 4)) ∧ Written (block (zeros 4)) 0 2 ∧ ¬ MpegSync (block (zeros 4)) 0) ∧
      (0 + 5 ≤ len (block (zeros 5)) ∧ Written (block (zeros 5)) 0 5 ∧ ¬ OggMagic (block (zeros 5)) 0) ∧
      (0 + 10 ≤ len (block (zeros 10)) ∧ Written (block (zeros 10)) 0 10 ∧ ¬ Id3Header (block (zeros 10)) 0) ∧
      (0 + 8 ≤ len (block (zeros 8)) ∧ Written (block (zeros 8)) 0 8 ∧ ¬ OpusHead (block (zeros 8)) 0) := by decide

/-- WalksCountBadCandidates: an ADTS sync with 18 bytes left. -/
theorem witness_bad_adts :
    0 + 7 < len (block (headA ++ zeros 11)) ∧ len (block (headA ++ zeros 11)) < 0 + 19 ∧ Written (block (headA ++ zeros 11)) 0 2 ∧
      AdtsSync (block (headA ++ zeros 11)) 0 := by decide

/-- WalksCountBadCandidates: a page with 26 bytes left, and one whose table lacks a byte. -/
theorem witness_bad_ogg :
    (0 + 5 ≤ len (block (pageQ.take 26)) ∧ len (block (pageQ.take 26)) < 0 + 27 ∧ Written (block (pageQ.take 26)) 0 5 ∧
        OggMagic (block (pageQ.take 26)) 0) ∧
      (0 + 27 ≤ len (block (pageQ.take 29)) ∧ len (block (pageQ.take 29)) < 0 + 27 + segments (block (pageQ.take 29)) 0 ∧
        Written (block (pageQ.take 29)) 0 27 ∧ OggMagic (block (pageQ.take 29)) 0) := by decide

/-- WalksCountBadCandidates: an OpusHead with 18 bytes left. -/
theorem witness_bad_opus :
    0 + 8 ≤ len (block (head.take 18)) ∧ len (block (head.take 18)) < 0 + 19 ∧ Written (block (head.take 18)) 0 8 ∧
      OpusHead (block (head.take 18)) 0 := by decide

/-- WalksCountBadCandidates: a free-format MP3 header. -/
theorem witness_bad_mp3 :
    0 + 4 ≤ len (block [0xFF, 0xFB, 0, 0]) ∧ Written (block [0xFF, 0xFB, 0, 0]) 0 4 ∧ MpegSync (block [0xFF, 0xFB, 0, 0]) 0 ∧ frameSize (block [0xFF, 0xFB, 0, 0]) 0 = 0 := by decide

/-- AdtsScanPushesAndAdvances: exactly 19 bytes, with frame size 16 and with frame size 0. -/
theorem witness_adts_scan :
    (0 + 19 ≤ len (block (headA ++ zeros 12)) ∧ Written (block (headA ++ zeros 12)) 0 9 ∧ AdtsSync (block (headA ++ zeros 12)) 0 ∧ Room (block (headA ++ zeros 12)) 6) ∧ adtsFrameSize (block (headA ++ zeros 12)) 0 = 16 ∧
      adtsFrameSize (block ([0xFF, 0xF1, 0x50, 0x80, 0, 0x1F, 0xFC] ++ zeros 12)) 0 = 0 := by decide

/-- Mp3ScanPushesAndAdvances: exactly 4 bytes. -/
theorem witness_mp3_scan :
    0 + 4 ≤ len (block [0xFF, 0xFB, 0x90, 0x64]) ∧ Written (block [0xFF, 0xFB, 0x90, 0x64]) 0 4 ∧ MpegSync (block [0xFF, 0xFB, 0x90, 0x64]) 0 ∧ 0 < frameSize (block [0xFF, 0xFB, 0x90, 0x64]) 0 ∧ Room (block [0xFF, 0xFB, 0x90, 0x64]) 6 := by decide

/-- OggScanPushesChecksAndAdvances: the chain broken and not broken. -/
theorem witness_ogg_scan :
    ((block pageQ).params.oggAdvAdj ≤ 1 ∧ 0 + 27 + segments (block pageQ) 0 ≤ len (block pageQ) ∧
        Written (block pageQ) 0 (27 + segments (block pageQ) 0) ∧ OggMagic (block pageQ) 0 ∧
        Room (block pageQ) (9 + (segments (block pageQ) 0 + 3) / 4)) ∧
      true = decide (true = true ∧ false = false ∧ pageNum (block pageQ) 0 ≠ (3 + 1) % 2 ^ 32) ∧
      false = decide (true = true ∧ false = false ∧ pageNum (block pageQ) 0 ≠ (4 + 1) % 2 ^ 32) := by decide

/-- Id3FindReportsTheTag: exactly 10 bytes. -/
theorem witness_id3 :
    0 = (block (tag.take 10)).off.toNat ∧ 0 + 10 ≤ len (block (tag.take 10)) ∧ Written (block (tag.take 10)) 0 10 ∧ Id3Header (block (tag.take 10)) 0 := by decide

/-- OpusHeadFindReportsTheHeader: no embedded TOC, and one at the buffer's last byte. -/
theorem witness_opushead :
    (0 = (block head).off.toNat ∧ 0 + 19 ≤ len (block head) ∧ Written (block head) 0 19 ∧ OpusHead (block head) 0) ∧
      none = ((block head).params.opusTocOffset.filter fun d => decide (0 + d < len (block head))).map (fun d => 0 + d) ∧
      some 19 = ({ block (head ++ [0x4F]) with params := ⟨512, 80, 0, some 19⟩ }.params.opusTocOffset.filter fun d =>
        decide (0 + d < len { block (head ++ [0x4F]) with params := ⟨512, 80, 0, some 19⟩ })).map (fun d => 0 + d) ∧
      Written { block (head ++ [0x4F]) with params := ⟨512, 80, 0, some 19⟩ } 19 1 := by decide

/-- WalksAlwaysMoveForward. -/
theorem witness_forward :
    isWalk .mp3Scan = true ∧ (running .mp3Scan (zeros 4)).params.wellFormed = true ∧
      len (running .mp3Scan (zeros 4)) ≤ (running .mp3Scan (zeros 4)).params.ibufCap ∧ (running .mp3Scan (zeros 4)).phase = .busy ∧
      ∃ t, exec .mp3Scan (running .mp3Scan (zeros 4)) = .next t ∧
        (decide (t ≠ running .mp3Scan (zeros 4)) && decide (t.phase = .busy)) = true := 
  ⟨by decide, by decide, by decide, by decide, next_of_after (by decide)⟩

/-- SearchesTerminate, for both. -/
theorem witness_searches :
    (running .id3Find (zeros 12)).params.wellFormed = true ∧ BufferReady (running .id3Find (zeros 12)) ∧
      (running .id3Find (zeros 12)).phase = .busy ∧ runningCommand (running .id3Find (zeros 12)) = some .id3Find ∧
      (running .id3Find (zeros 12)).script = [] ∧
      (running .opusheadFind (zeros 12)).params.wellFormed = true ∧ BufferReady (running .opusheadFind (zeros 12)) ∧
      (running .opusheadFind (zeros 12)).phase = .busy ∧ runningCommand (running .opusheadFind (zeros 12)) = some .opusheadFind ∧
      (running .opusheadFind (zeros 12)).script = [] := by decide

/-- ScansTerminate, for all three: room for exactly the bound. -/
theorem witness_scans :
    ({ running .adtsScan [1] with params := ⟨1, 73, 0, none⟩ }.params.wellFormed = true ∧ BufferReady { running .adtsScan [1] with params := ⟨1, 73, 0, none⟩ } ∧
        Room { running .adtsScan [1] with params := ⟨1, 73, 0, none⟩ } (73 * (len { running .adtsScan [1] with params := ⟨1, 73, 0, none⟩ } - { running .adtsScan [1] with params := ⟨1, 73, 0, none⟩ }.off.toNat)) ∧
        { running .adtsScan [1] with params := ⟨1, 73, 0, none⟩ }.phase = .busy ∧ runningCommand { running .adtsScan [1] with params := ⟨1, 73, 0, none⟩ } = some .adtsScan ∧
        { running .adtsScan [1] with params := ⟨1, 73, 0, none⟩ }.script = []) ∧
      ({ running .mp3Scan [1] with params := ⟨1, 73, 0, none⟩ }.params.wellFormed = true ∧ BufferReady { running .mp3Scan [1] with params := ⟨1, 73, 0, none⟩ } ∧
        Room { running .mp3Scan [1] with params := ⟨1, 73, 0, none⟩ } (73 * (len { running .mp3Scan [1] with params := ⟨1, 73, 0, none⟩ } - { running .mp3Scan [1] with params := ⟨1, 73, 0, none⟩ }.off.toNat)) ∧
        { running .mp3Scan [1] with params := ⟨1, 73, 0, none⟩ }.phase = .busy ∧ runningCommand { running .mp3Scan [1] with params := ⟨1, 73, 0, none⟩ } = some .mp3Scan ∧
        { running .mp3Scan [1] with params := ⟨1, 73, 0, none⟩ }.script = []) ∧
      ({ running .oggScan [1] with params := ⟨1, 73, 0, none⟩ }.params.wellFormed = true ∧ BufferReady { running .oggScan [1] with params := ⟨1, 73, 0, none⟩ } ∧
        Room { running .oggScan [1] with params := ⟨1, 73, 0, none⟩ } (73 * (len { running .oggScan [1] with params := ⟨1, 73, 0, none⟩ } - { running .oggScan [1] with params := ⟨1, 73, 0, none⟩ }.off.toNat)) ∧
        { running .oggScan [1] with params := ⟨1, 73, 0, none⟩ }.phase = .busy ∧ runningCommand { running .oggScan [1] with params := ⟨1, 73, 0, none⟩ } = some .oggScan ∧
        { running .oggScan [1] with params := ⟨1, 73, 0, none⟩ }.script = []) := by decide

/-- BytesBeyondTheBufferAreNeverRead: a byte at `L` itself differs. -/
theorem witness_beyond :
    ∀ a < len (block [1, 2]), byteAt (cells 0 [1, 2, 3]) a = byteAt (block [1, 2]).ibuf a := by decide

/-- StepDependsOnlyOnCommandState: two states that differ in the FIFO and the host's bits. -/
theorem witness_alike :
    SameToCommand (running .adtsScan (headA ++ zeros 12))
        { running .adtsScan (headA ++ zeros 12) with fifo := [1], ie := true, reject := true } ∧
      Room (running .adtsScan (headA ++ zeros 12)) 73 ∧
      Room { running .adtsScan (headA ++ zeros 12) with fifo := [1], ie := true, reject := true } 73 ∧
      ∃ t, exec .adtsScan (running .adtsScan (headA ++ zeros 12)) = .next t ∧ (fun _ => true) t = true :=
  ⟨by unfold SameToCommand; decide, by decide, by decide, next_of_after (by decide)⟩

/-- AcceptanceForgetsThePast: two idle states whose last commands, and so whose `op`, differ; a word that starts the
engine, and an illegal one. -/
theorem witness_acceptance :
    (block [1]).phase = .idle ∧ { block [1] with op := 0x12, steps := 9, done := true }.phase = .idle ∧
      (block [1]).op ≠ { block [1] with op := 0x12, steps := 9, done := true }.op ∧
      (block [1]).params = { block [1] with op := 0x12, steps := 9, done := true }.params ∧
      (∀ a < len (block [1]),
        byteAt (block [1]).ibuf a = byteAt { block [1] with op := 0x12, steps := 9, done := true }.ibuf a) ∧
      (∃ t, takeMove (.regWrite 0x08 32 0x10) (block [1]) = .next t ∧ decide (t.phase = .busy) = true) ∧
      ∃ t, takeMove (.regWrite 0x08 32 0x02) (block [1]) = .next t ∧ decide (t.phase = .idle) = true :=
  ⟨by decide, by decide, by decide, by decide, by decide, next_of_after (by decide), next_of_after (by decide)⟩

/-- StepKeepsStorageInv, StepKeepsLifecycleInv, StepKeepsSequenceInv and StepKeepsProgressInv: a scan in the middle of
its buffer, FIFO one record short of full, and its step. -/
theorem witness_invariants :
    StorageInv { running .oggScan pageQ with fifo := List.replicate 70 0 } ∧
      LifecycleInv { running .oggScan pageQ with fifo := List.replicate 70 0 } ∧
      SequenceInv { running .oggScan pageQ with fifo := List.replicate 70 0 } ∧
      ProgressInv { running .oggScan pageQ with fifo := List.replicate 70 0 } ∧
      ∃ t, step { running .oggScan pageQ with fifo := List.replicate 70 0 } = .next t ∧ decide (t.fifo.length = 80) = true := by
  refine ⟨by unfold StorageInv; decide, fun _ => ⟨⟨.oggScan, by decide, by decide, fun _ => by decide⟩, by decide⟩,
    by unfold SequenceInv; decide, fun _ => ⟨fun i h _ => ?_, fun i h _ => by decide⟩, next_of_after (by decide)⟩
  have : i = .oggScan := (Option.some.inj (h.symm.trans (by decide : _ = some Instr.oggScan)))
  subst this
  contradiction

end Sys2Proof.Tests
end

section
/-! Everything a register write can do, said once: the inversion of `writeReg`. -/

namespace Sys2Proof.Machine

/-- Every way a register write of `v` can leave the state (10_state.md R20 to R28, 40_engine.md R151 to R154). -/
inductive WriteEffect (v : Word) (s : State) : State → Prop
  /-- A read-only register, or a W-busy-ignored one while BUSY. -/
  | ignored : WriteEffect v s s
  /-- CTRL with SRST 1. -/
  | softReset (srst : v.getLsbD 1 = true) : WriteEffect v s (resetBlock s)
  /-- CTRL with SRST 0. -/
  | interruptEnable (srst : v.getLsbD 1 = false) : WriteEffect v s { s with ie := v.getLsbD 0 }
  /-- STATUS. -/
  | statusCleared : WriteEffect v s (clearStatus v s)
  /-- CMD while BUSY. -/
  | rejected (busy : s.phase = .busy) : WriteEffect v s { s with reject := true }
  /-- CMD in IDLE, an illegal word. -/
  | illegal (idle : s.phase = .idle) (why : Illegal) (word : decode v = .illegal why) :
      WriteEffect v s (finish .illegal (latchCommand v s))
  /-- CMD in IDLE, a legal word that fails the RANGE check. -/
  | range (idle : s.phase = .idle) (i : Instr) (word : decode v = .command i) (out : outOfRange i s = true) :
      WriteEffect v s (finish .range (latchCommand v s))
  /-- CMD in IDLE, a legal word that starts the engine. -/
  | started (idle : s.phase = .idle) (i : Instr) (word : decode v = .command i) (inside : outOfRange i s = false) :
      WriteEffect v s (startEngine v (latchCommand v s))
  /-- BUF_LEN in IDLE. -/
  | bufLen (idle : s.phase = .idle) : WriteEffect v s { s with bufLen := v }
  /-- ARG0 in IDLE. -/
  | arg0 (idle : s.phase = .idle) : WriteEffect v s { s with arg0 := v }
  /-- ARG1 in IDLE. -/
  | arg1 (idle : s.phase = .idle) : WriteEffect v s { s with arg1 := v }

theorem writeCtrl_effect (v : Word) (s : State) : WriteEffect v s (writeCtrl v s) := by
  unfold writeCtrl
  split
  · rename_i srst
    exact .softReset srst
  · rename_i srst
    exact .interruptEnable (Bool.eq_false_of_not_eq_true srst)

theorem acceptCommand_effect (v : Word) {s : State} (idle : s.phase = .idle) :
    WriteEffect v s (acceptCommand v s) := by
  unfold acceptCommand
  split
  · rename_i why word
    exact .illegal idle why word
  · rename_i i word
    split
    · rename_i out
      exact .range idle i word out
    · rename_i inside
      exact .started idle i word (Bool.eq_false_of_not_eq_true inside)

theorem writeCmd_effect (v : Word) (s : State) : WriteEffect v s (writeCmd v s) := by
  unfold writeCmd
  split
  · exact acceptCommand_effect v ‹_›
  · exact .rejected ‹_›

/-- A W-busy-ignored write has its effect in IDLE and none while BUSY. -/
theorem whenIdle_effect {v : Word} {s t : State} (effect : s.phase = .idle → WriteEffect v s t) :
    WriteEffect v s (whenIdle s t) := by
  unfold whenIdle
  split
  · exact effect ‹_›
  · exact .ignored

/-- Everything a register write can do. -/
theorem writeReg_effect (r : Reg) (v : Word) (s : State) : WriteEffect v s (writeReg r v s) := by
  cases r with
  | ctrl => exact writeCtrl_effect v s
  | status => exact .statusCleared
  | cmd => exact writeCmd_effect v s
  | bufLen => exact whenIdle_effect .bufLen
  | arg0 => exact whenIdle_effect .arg0
  | arg1 => exact whenIdle_effect .arg1
  | _ => exact .ignored

end Sys2Proof.Machine
end

section
/-! What a step leaves of the storage (00_scope.md R7, 20_memory.md R70, R71, 10_state.md R46): no step changes the
parameters, only the IBUF port writes IBUF, and only a step of the running command lengthens the FIFO. -/

namespace Sys2Proof.Machine

theorem StepEffect.params_eq {i : Instr} {s t : State} (h : StepEffect i s t) : t.params = s.params := by
  cases h with
  | cleared => rfl
  | _ => simp

/-- The engine only reads IBUF. -/
theorem StepEffect.ibuf_eq {i : Instr} {s t : State} (h : StepEffect i s t) : t.ibuf = s.ibuf := by
  cases h with
  | cleared => rfl
  | _ => simp

/-- An engine step appends a record only where the FIFO has room for it (40_engine.md R160). -/
theorem StepEffect.fifo_le {i : Instr} {s t : State} (h : StepEffect i s t)
    (fits : s.fifo.length ≤ s.params.outDepth) : t.fifo.length ≤ s.params.outDepth := by
  cases h with
  | cleared => exact Nat.zero_le _
  | recorded c r words invalid walk buf shape room => simpa using room
  | frame words invalid size advance scan inside shape room => simpa using room
  | page words invalid size pageNum scan inside shape room => simpa using room
  | _ => exact fits

theorem WriteEffect.params_eq {v : Word} {s t : State} (h : WriteEffect v s t) : t.params = s.params := by
  cases h <;> rfl

theorem WriteEffect.ibuf_eq {v : Word} {s t : State} (h : WriteEffect v s t) : t.ibuf = s.ibuf := by
  cases h <;> rfl

@[simp] theorem popOutData_params (s : State) : (popOutData s).params = s.params := by
  unfold popOutData
  split <;> rfl

@[simp] theorem popOutData_ibuf (s : State) : (popOutData s).ibuf = s.ibuf := by
  unfold popOutData
  split <;> rfl

end Sys2Proof.Machine

namespace Sys2Proof.Claims

open Sys2Proof.Machine

/-- A change that leaves the parameters and IBUF alone and keeps the FIFO within OUT_DEPTH keeps the invariant. -/
theorem StorageInv.of_eq {s t : State} (inv : StorageInv s) (params : t.params = s.params) (ibuf : t.ibuf = s.ibuf)
    (fits : t.fifo.length ≤ s.params.outDepth) : StorageInv t := by
  obtain ⟨ranges, wf, below, _⟩ := inv
  unfold StorageInv
  rw [params, ibuf]
  exact ⟨ranges, wf, below, fits⟩

/-- Every move keeps the storage invariant. -/
theorem StorageInv.of_moveEffect {s t : State} (inv : StorageInv s) (h : MoveEffect s t) : StorageInv t := by
  have ⟨ranges, wf, below, fits⟩ := inv
  cases h with
  | unchanged => exact inv
  | ran i t _ _ effect => exact inv.of_eq effect.params_eq effect.ibuf_eq (effect.fifo_le fits)
  | reset => exact inv.of_eq rfl rfl (Nat.zero_le _)
  | read r => exact inv.of_eq rfl rfl fits
  | popped r =>
    exact inv.of_eq (popOutData_params s) (popOutData_ibuf s) (Nat.le_trans (popOutData_fifo_le s) fits)
  | wrote r v =>
    have effect := writeReg_effect r v s
    exact inv.of_eq effect.params_eq effect.ibuf_eq (Nat.le_trans (writeReg_fifo_le r v s) fits)
  | ibufByte a v inside => exact ⟨ranges, setByte_wf wf a v, setByte_below below inside v, fits⟩

/-- Settles O57, by cases on the move: the script is no part of the storage, so the invariant holds in the state the
move starts from. -/
theorem stepKeepsStorageInv : Obligations.StepKeepsStorageInv := by
  intro s t inv h
  rcases step_effect h with effect | ⟨rest, effect⟩
  · exact inv.of_moveEffect effect
  · have started : StorageInv { s with script := rest } := inv
    exact started.of_moveEffect effect

end Sys2Proof.Claims
end

section
/-! What a step of a command leaves alone, group by group (10_state.md R48, R35, 40_engine.md R150, R151). -/

namespace Sys2Proof.Machine

/-- The state that belongs to the host and to acceptance is the same: no engine step writes it (10_state.md R48,
40_engine.md R151). -/
structure HostSideKept (s t : State) : Prop where
  params : t.params = s.params
  ibuf : t.ibuf = s.ibuf
  arg0 : t.arg0 = s.arg0
  arg1 : t.arg1 = s.arg1
  bufLen : t.bufLen = s.bufLen
  cmd : t.cmd = s.cmd
  op : t.op = s.op
  ie : t.ie = s.ie
  reject : t.reject = s.reject
  underflow : t.underflow = s.underflow
  script : t.script = s.script
  replies : t.replies = s.replies

/-- The page-sequence state is the same (10_state.md R35, R36, R45). -/
structure SequenceKept (s t : State) : Prop where
  monoOk : t.monoOk = s.monoOk
  missingValid : t.missingValid = s.missingValid
  havePage : t.havePage = s.havePage
  oggMissing : t.oggMissing = s.oggMissing
  prevPn : t.prevPn = s.prevPn

/-- The state that only scans and searches move is the same (40_engine.md R157, R159, R161). -/
structure WalkStateKept (s t : State) : Prop where
  off : t.off = s.off
  steps : t.steps = s.steps
  truncCount : t.truncCount = s.truncCount
  incompleteCount : t.incompleteCount = s.incompleteCount
  havePrev : t.havePrev = s.havePrev
  prevEnd : t.prevEnd = s.prevEnd

theorem HostSideKept.refl (s : State) : HostSideKept s s := by constructor <;> rfl

theorem SequenceKept.refl (s : State) : SequenceKept s s := by constructor <;> rfl

theorem WalkStateKept.refl (s : State) : WalkStateKept s s := by constructor <;> rfl

theorem StepEffect.hostSideKept {i : Instr} {s t : State} (h : StepEffect i s t) : HostSideKept s t := by
  cases h with
  | cleared => constructor <;> rfl
  | _ => constructor <;> simp

/-- An engine step leaves the page-sequence state alone, but where OGG_SCAN pushes a page, which does exactly
`SeqCheck` to it (44_ogg.md R319). -/
theorem StepEffect.sequence_cases {i : Instr} {s t : State} (h : StepEffect i s t) :
    SequenceKept s t ∨ (i = .oggScan ∧ ∃ pageNum, SequenceKept (seqCheck pageNum s) t) := by
  cases h with
  | page words invalid size pageNum scan =>
    exact .inr ⟨scan, pageNum, by constructor <;> simp⟩
  | cleared => exact .inl (by constructor <;> rfl)
  | _ => exact .inl (by constructor <;> simp)

theorem StepEffect.walkStateKept {i : Instr} {s t : State} (h : StepEffect i s t) (oneShot : isWalk i = false) :
    WalkStateKept s t := by
  have notWalk : isWalk i ≠ true := by simp [oneShot]
  cases h with
  | cleared => constructor <;> rfl
  | answered | recorded => constructor <;> simp
  | ended c r walk | found r walk | skipped walk | cut walk => exact absurd walk notWalk
  | rejected isMp3 => subst isMp3; cases oneShot
  | frame words invalid size advance scan => rcases scan with rfl | rfl <;> cases oneShot
  | page words invalid size pageNum scan => subst scan; cases oneShot

/-- What holds of every effect of a command's step, and of the state a held step leaves as it is, holds of every next
state the command answers. -/
theorem exec_next_induction {P : State → Prop} {i : Instr} {s t : State} (h : exec i s = .next t)
    (effect : StepEffect i s t → P t) (held : P s) : P t := by
  rcases exec_next h with e | ⟨_, rfl⟩
  · exact effect e
  · exact held

end Sys2Proof.Machine

namespace Sys2Proof.Claims

open Sys2Proof.Machine

/-- Settles O22: each group of fields by its frame over the step's effects; a held step changes nothing. -/
theorem commandsLeaveOtherStateAlone : Obligations.CommandsLeaveOtherStateAlone := by
  intro s t i h
  have host : HostSideKept s t := exec_next_induction h StepEffect.hostSideKept (.refl s)
  have sequence (notOgg : i ≠ .oggScan) : SequenceKept s t :=
    exec_next_induction h (fun e => e.sequence_cases.resolve_right fun ⟨isOgg, _⟩ => notOgg isOgg) (.refl s)
  have walk (oneShot : isWalk i = false) : WalkStateKept s t :=
    exec_next_induction h (fun e => e.walkStateKept oneShot) (.refl s)
  refine ⟨host.ibuf, host.arg0, host.arg1, host.bufLen, host.cmd, host.ie, host.reject, host.underflow, host.op,
    host.params, host.script, host.replies, fun notOgg => ?_, fun oneShot => ?_⟩
  · obtain ⟨monoOk, missingValid, havePage, oggMissing, prevPn⟩ := sequence notOgg
    exact ⟨monoOk, missingValid, havePage, oggMissing, prevPn⟩
  · obtain ⟨off, steps, truncCount, incompleteCount, havePrev, prevEnd⟩ := walk oneShot
    exact ⟨off, steps, truncCount, incompleteCount, havePrev, prevEnd⟩

/-! The page-sequence invariant (10_state.md R35, R36; 44_ogg.md R319). -/

/-- The invariant speaks of the page-sequence state and CMD only. -/
theorem SequenceInv.of_kept {s t : State} (inv : SequenceInv s) (kept : SequenceKept s t) (cmd : t.cmd = s.cmd) :
    SequenceInv t := by
  obtain ⟨monoOk, missingValid, havePage, oggMissing, _⟩ := kept
  unfold SequenceInv
  rwa [monoOk, missingValid, havePage, oggMissing, cmd]

/-- `SeqCheck` of a running OGG_SCAN keeps the invariant: it sets HAVE_PAGE, and writes OGG_MISSING only together with
MISSING_VALID (44_ogg.md R319). -/
theorem SequenceInv.seqCheck {s : State} (inv : SequenceInv s) (cmd : s.cmd = encode .oggScan) (pageNum : Word) :
    SequenceInv (seqCheck pageNum s) := by
  obtain ⟨missingZero, _, _⟩ := inv
  refine ⟨fun stillNone => ?_, fun _ => rfl, fun _ => cmd⟩
  obtain ⟨noneBefore, noGap⟩ := Bool.or_eq_false_iff.1 stillNone
  simp only [seqCheck_oggMissing, noneBefore, Bool.not_false, Bool.and_true, noGap, cond_false, missingZero]

/-- Acceptance zeroes the page-sequence state and sets MONO_OK only for OGG_SCAN's word (40_engine.md R151). -/
theorem SequenceInv.latchCommand (w : Word) (s : State) : SequenceInv (latchCommand w s) := by
  refine ⟨fun _ => rfl, fun valid => Bool.noConfusion valid, fun anyBit => ?_⟩
  simpa [encode] using anyBit

theorem SequenceInv.resetBlock (s : State) : SequenceInv (resetBlock s) :=
  ⟨fun _ => rfl, fun valid => Bool.noConfusion valid, fun anyBit => Bool.noConfusion anyBit⟩

/-- A step of the command that CMD holds keeps the invariant. -/
theorem SequenceInv.of_stepEffect {i : Instr} {s t : State} (inv : SequenceInv s) (cmd : s.cmd = encode i)
    (effect : StepEffect i s t) : SequenceInv t := by
  rcases effect.sequence_cases with kept | ⟨rfl, pageNum, kept⟩
  · exact inv.of_kept kept effect.hostSideKept.cmd
  · exact (inv.seqCheck cmd pageNum).of_kept kept effect.hostSideKept.cmd

/-- Every register write keeps the invariant: only a reset and acceptance touch what it speaks of. -/
theorem SequenceInv.of_writeEffect {v : Word} {s t : State} (inv : SequenceInv s) (effect : WriteEffect v s t) :
    SequenceInv t := by
  cases effect with
  | softReset => exact .resetBlock s
  | illegal | range | started => exact (SequenceInv.latchCommand v s).of_kept (by constructor <;> rfl) rfl
  | _ => exact inv

theorem popOutData_sequenceKept (s : State) : SequenceKept s (popOutData s) := by
  unfold popOutData
  split <;> constructor <;> rfl

theorem popOutData_cmd (s : State) : (popOutData s).cmd = s.cmd := by
  unfold popOutData
  split <;> rfl

/-- While BUSY the running command is the one CMD holds. -/
theorem LifecycleInv.cmd_eq {i : Instr} {s : State} (inv : LifecycleInv s) (busy : s.phase = .busy)
    (running : runningCommand s = some i) : s.cmd = encode i := by
  obtain ⟨⟨j, cmd, runs, _⟩, _⟩ := inv busy
  obtain rfl : i = j := Option.some.inj (running.symm.trans runs)
  exact cmd

/-- Every move keeps the page-sequence invariant. -/
theorem SequenceInv.of_moveEffect {s t : State} (life : LifecycleInv s) (inv : SequenceInv s) (h : MoveEffect s t) :
    SequenceInv t := by
  cases h with
  | unchanged => exact inv
  | ran i t busy running effect => exact inv.of_stepEffect (life.cmd_eq busy running) effect
  | reset => exact .resetBlock s
  | read r => exact inv
  | popped r =>
    have popped : SequenceInv (popOutData s) := inv.of_kept (popOutData_sequenceKept s) (popOutData_cmd s)
    exact popped
  | wrote r v => exact inv.of_writeEffect (writeReg_effect r v s)
  | ibufByte a v inside => exact inv

/-- Settles O59, by cases on the move: the script is no part of either invariant, so both hold in the state the move
starts from. -/
theorem stepKeepsSequenceInv : Obligations.StepKeepsSequenceInv := by
  intro s t life inv h
  rcases step_effect h with effect | ⟨rest, effect⟩
  · exact .of_moveEffect life inv effect
  · have lifeStarted : LifecycleInv { s with script := rest } := life
    have started : SequenceInv { s with script := rest } := inv
    exact .of_moveEffect lifeStarted started effect

end Sys2Proof.Claims
end

section
/-! The register map (10_state.md R20, R21): which register stands at an offset, and what an aligned access of it
does. -/

namespace Sys2Proof.Machine

theorem registerAt_regOffset (r : Reg) : registerAt (regOffset r) = some r := by cases r <;> rfl

theorem alignedWord_regOffset (r : Reg) : alignedWord (regOffset r) 32 = true := by cases r <;> rfl

theorem alignedWord_iff {offset : BitVec 8} {bits : Nat} :
    alignedWord offset bits = true ↔ offset.toNat % 4 = 0 ∧ bits = 32 := by
  simp [alignedWord]

/-- The slots from 0x60 on are reserved (R20). -/
theorem registerAt_reserved {offset : BitVec 8} (above : 0x60 ≤ offset.toNat) : registerAt offset = none := by
  have rowsBelow : ∀ row ∈ registerMap, row.1.toNat < 0x60 := by decide
  refine List.lookup_eq_none_iff.2 fun row inMap => bne_iff_ne.2 fun same => ?_
  have := rowsBelow row inMap
  rw [← same] at this
  omega

/-- Every aligned slot below 0x60 is a register's (R20). -/
theorem eq_regOffset_of_aligned {offset : BitVec 8} (aligned : offset.toNat % 4 = 0) (below : offset.toNat < 0x60) :
    ∃ r, offset = regOffset r := by
  have rows : ∀ k < 24, ∃ row ∈ registerMap, BitVec.ofNat 8 (4 * k) = regOffset row.2 := by decide
  obtain ⟨row, _, same⟩ := rows (offset.toNat / 4) (by omega)
  refine ⟨row.2, same ▸ ?_⟩
  rw [Nat.mul_div_cancel' (Nat.dvd_of_mod_eq_zero aligned), BitVec.ofNat_toNat, BitVec.setWidth_eq]

/-- An aligned read of a register answers its value and has the effect of its read. -/
theorem regRead_regOffset (r : Reg) (s : State) :
    takeMove (.regRead (regOffset r) 32) s = .next (reply (.word (regValue r s)) (afterRead r s)) := by
  simp [takeMove, regRead, alignedWord_regOffset, registerAt_regOffset]

/-- An aligned write of a register does what writing it does. -/
theorem regWrite_regOffset (r : Reg) (v : Word) (s : State) :
    takeMove (.regWrite (regOffset r) 32 v) s = .next (writeReg r v s) := by
  simp [takeMove, regWrite, alignedWord_regOffset, registerAt_regOffset]

/-- Only OUT_DATA's read has an effect (R21). -/
theorem afterRead_of_ne {r : Reg} (h : r ≠ .outData) (s : State) : afterRead r s = s := by
  cases r with
  | outData => exact absurd rfl h
  | _ => rfl

/-- The registers from 0x18 on are read-only, but OUT_DATA, whose write is ignored too (R20, R38). -/
theorem writeReg_of_readOnly {r : Reg} (h : 0x18 ≤ (regOffset r).toNat) (v : Word) (s : State) :
    writeReg r v s = s := by
  cases r with
  | ctrl | status | cmd | bufLen | arg0 | arg1 => exact absurd h (by decide)
  | _ => rfl

theorem regRead_unaligned {offset : BitVec 8} {bits : Nat} (h : alignedWord offset bits = false) (s : State) :
    takeMove (.regRead offset bits) s = .refused (.notAnAlignedWord offset bits) := by
  simp [takeMove, regRead, h]

theorem regWrite_unaligned {offset : BitVec 8} {bits : Nat} (h : alignedWord offset bits = false) (v : Word)
    (s : State) : takeMove (.regWrite offset bits v) s = .refused (.notAnAlignedWord offset bits) := by
  simp [takeMove, regWrite, h]

/-- A reserved slot reads 0. -/
theorem regRead_reserved {offset : BitVec 8} (aligned : offset.toNat % 4 = 0) (above : 0x60 ≤ offset.toNat)
    (s : State) : takeMove (.regRead offset 32) s = .next (reply (.word 0) s) := by
  simp [takeMove, regRead, alignedWord_iff.2 ⟨aligned, rfl⟩, registerAt_reserved above]

/-- A reserved slot ignores a write. -/
theorem regWrite_reserved {offset : BitVec 8} (aligned : offset.toNat % 4 = 0) (above : 0x60 ≤ offset.toNat)
    (v : Word) (s : State) : takeMove (.regWrite offset 32 v) s = .next s := by
  simp [takeMove, regWrite, alignedWord_iff.2 ⟨aligned, rfl⟩, registerAt_reserved above]

theorem outDataWord_of_cons {s : State} {w : Word} {rest : List Word} (h : s.fifo = w :: rest) :
    outDataWord s = w := by
  simp [outDataWord, h]

theorem outDataWord_of_nil {s : State} (h : s.fifo = []) : outDataWord s = 0 := by
  simp [outDataWord, h]

theorem popOutData_of_cons {s : State} {w : Word} {rest : List Word} (h : s.fifo = w :: rest) :
    popOutData s = { s with fifo := rest } := by
  simp [popOutData, h]

theorem popOutData_of_nil {s : State} (h : s.fifo = []) : popOutData s = { s with underflow := true } := by
  simp [popOutData, h]

end Sys2Proof.Machine

namespace Sys2Proof.Claims

open Sys2Proof.Machine

/-- Settles O15, by the offset's slot: unaligned, reserved, read-only, or read without effect. -/
theorem registerAccessRules : Obligations.RegisterAccessRules := by
  intro s offset bits v
  refine ⟨fun notWord => ?_,
    fun aligned above => ⟨regRead_reserved aligned above s, regWrite_reserved aligned above v s⟩,
    fun aligned above below => ?_, fun aligned below notOutData => ?_⟩
  · have unaligned : alignedWord offset bits = false := by
      rw [Bool.eq_false_iff, ne_eq, alignedWord_iff]
      omega
    exact ⟨regRead_unaligned unaligned s, regWrite_unaligned unaligned v s⟩
  · obtain ⟨r, rfl⟩ := eq_regOffset_of_aligned aligned (by omega)
    rw [regWrite_regOffset, writeReg_of_readOnly above]
  · obtain ⟨r, rfl⟩ := eq_regOffset_of_aligned aligned below
    have plain : r ≠ .outData := fun isOutData => notOutData (isOutData ▸ rfl)
    exact ⟨regValue r s, by rw [regRead_regOffset, afterRead_of_ne plain]; rfl⟩

/-- Settles O11, by whether the FIFO holds a word. -/
theorem outDataReadPops : Obligations.OutDataReadPops := by
  intro s
  have read : takeMove (.regRead 0x3C 32) s = .next (reply (.word (outDataWord s)) (popOutData s)) :=
    regRead_regOffset .outData s
  refine ⟨fun w rest holds => ?_, fun empty => ?_, fun v => regWrite_regOffset .outData v s⟩
  · rw [read, outDataWord_of_cons holds, popOutData_of_cons holds]
    rfl
  · rw [read, outDataWord_of_nil empty, popOutData_of_nil empty]
    rfl

/-- A W1C bit: cleared where the written bit is 1. -/
theorem and_not_getLsbD (b : Bool) (v : Word) (i : Nat) :
    (b && !v.getLsbD i) = if v.toNat / 2 ^ i % 2 = 1 then false else b := by
  rw [← BitVec.testBit_toNat, Nat.testBit_eq_decide_div_mod_eq]
  split <;> simp [*]

/-- Settles O12: each W1C bit of the written word as a digit of its value. -/
theorem statusWriteClearsOnes : Obligations.StatusWriteClearsOnes := by
  intro s v
  have write : takeMove (.regWrite 0x04 32 v) s = .next (clearStatus v s) := regWrite_regOffset .status v s
  rw [write, clearStatus, and_not_getLsbD, and_not_getLsbD, and_not_getLsbD]
  rfl

end Sys2Proof.Claims
end

section
/-! The words of CTRL, STATUS and OGG_SEQ as numbers (10_state.md R22, R23, R35). -/

namespace Sys2Proof.Machine

/-- Fields side by side, as a number: the upper one weighed by the lower one's width. -/
theorem toNat_append_eq_add {m n : Nat} (x : BitVec m) (y : BitVec n) :
    (x ++ y).toNat = x.toNat * 2 ^ n + y.toNat := by
  rw [BitVec.toNat_append, ← Nat.shiftLeft_add_eq_or_of_lt y.isLt, Nat.shiftLeft_eq]

theorem toNat_bit (b : Bool) : (bit b).toNat = b.toNat := BitVec.toNat_ofBool b

theorem ctrlWord_toNat (s : State) : (ctrlWord s).toNat = s.ie.toNat := by
  rw [ctrlWord, toNat_append_eq_add, toNat_bit, BitVec.toNat_ofNat, Nat.zero_mod, Nat.zero_mul, Nat.zero_add]

theorem statusWord_toNat (s : State) (stall : Bool) :
    (statusWord s stall).toNat =
      (busyBit s).toNat + s.done.toNat * 2 + s.reject.toNat * 4 + s.underflow.toNat * 8
        + (codeBits s.code).toNat * 16 + stall.toNat * 2 ^ 8 + (outNeBit s).toNat * 2 ^ 9 := by
  simp only [statusWord, toNat_append_eq_add, toNat_bit, BitVec.toNat_ofNat]
  omega

/-- DONE stands at bit 1 of STATUS. -/
theorem statusWord_done (s : State) (stall : Bool) : (statusWord s stall).toNat / 2 % 2 = s.done.toNat := by
  have busy := Bool.toNat_lt (busyBit s)
  have done := Bool.toNat_lt s.done
  rw [statusWord_toNat]
  omega

/-- STALL stands at bit 8 of STATUS. -/
theorem statusWord_stall (s : State) (stall : Bool) : (statusWord s stall).toNat / 2 ^ 8 % 2 = stall.toNat := by
  have busy := Bool.toNat_lt (busyBit s)
  have done := Bool.toNat_lt s.done
  have reject := Bool.toNat_lt s.reject
  have underflow := Bool.toNat_lt s.underflow
  have code := (codeBits s.code).isLt
  have stall := Bool.toNat_lt stall
  rw [statusWord_toNat]
  omega

theorem irq_iff (s : State) : s.irq = true ↔ s.ie = true ∧ s.done = true := by
  simp [State.irq]

end Sys2Proof.Machine

namespace Sys2Proof.Claims

open Sys2Proof.Machine

theorem flag_eq_toNat {b : Bool} {p : Prop} [Decidable p] (h : b = true ↔ p) : flag p = b.toNat := by
  cases b <;> simp_all [flag]

/-- Settles O13: the fields' weights, each flag the number of its bit. -/
theorem statusFieldsStandAtTheirBits : Obligations.StatusFieldsStandAtTheirBits := by
  intro s
  have status : (regValue .status s).toNat = _ := statusWord_toNat s (stallBit s)
  have busy : busyBit s = true ↔ s.phase = .busy := decide_eq_true_iff
  have outNe : outNeBit s = true ↔ s.fifo ≠ [] := by simp [outNeBit, List.length_pos_iff]
  rw [status, flag_eq_toNat busy, flag_eq_toNat outNe, flag_eq_toNat (b := s.done) Iff.rfl,
    flag_eq_toNat (b := s.reject) Iff.rfl, flag_eq_toNat (b := s.underflow) Iff.rfl,
    flag_eq_toNat (b := stallBit s) Iff.rfl]
  cases s.code <;> rfl

/-- Settles O14: bit 0 of CTRL is IE and bit 1 of STATUS is DONE. -/
theorem irqIsEnableAndDone : Obligations.IrqIsEnableAndDone := by
  refine ⟨fun s => ?_, rfl⟩
  have ie : (regValue .ctrl s).toNat % 2 = s.ie.toNat := by
    rw [regValue, ctrlWord_toNat, Nat.mod_eq_of_lt (Bool.toNat_lt _)]
  have done : (regValue .status s).toNat / 2 % 2 = s.done.toNat := statusWord_done s (stallBit s)
  rw [ie, done, irq_iff, Bool.toNat_eq_one, Bool.toNat_eq_one]

/-- The registers whose read has no effect, in the map's order (10_state.md R20, R21). -/
def plainRegisters : List Reg :=
  [.ctrl, .status, .cmd, .bufLen, .arg0, .arg1, .off, .steps, .recCount, .truncCount, .invalidCount,
   .incompleteCount, .oggSeq, .oggMissing, .outLevel, .res0, .res1, .res2, .res3, .res4, .res5, .res6, .res7]

theorem ne_outData_of_plain {r : Reg} (h : r ∈ plainRegisters) : r ≠ .outData := by
  rintro rfl
  exact absurd h (by decide)

theorem ctrlWord_eq_flag (s : State) : ctrlWord s = BitVec.ofNat 32 (flag (s.ie = true)) := by
  unfold ctrlWord
  cases s.ie <;> rfl

theorem oggSeqWord_eq_flags (s : State) :
    oggSeqWord s = BitVec.ofNat 32
      (flag (s.monoOk = true) + flag (s.missingValid = true) * 2 + flag (s.havePage = true) * 4) := by
  unfold oggSeqWord
  cases s.monoOk <;> cases s.missingValid <;> cases s.havePage <;> rfl

/-- Settles O16: the table's rows are the plain registers' offsets and values. -/
theorem registerReadsReturn : Obligations.RegisterReadsReturn := by
  intro s offset w inTable
  rw [← ctrlWord_eq_flag, ← oggSeqWord_eq_flags] at inTable
  obtain ⟨r, plain, row⟩ := List.mem_map.1
    (show (offset, w) ∈ plainRegisters.map fun r => (regOffset r, regValue r s) from inTable)
  obtain ⟨rfl, rfl⟩ := Prod.mk.inj row
  rw [regRead_regOffset, afterRead_of_ne (ne_outData_of_plain plain)]
  rfl

end Sys2Proof.Claims
end

section
/-! STALL and the held step (10_state.md R23, 40_engine.md R160). -/

namespace Sys2Proof.Machine

/-- With a command running, STALL says whether its step is held. -/
theorem stallBit_iff_held {s : State} {i : Instr} (busy : s.phase = .busy) (running : runningCommand s = some i) :
    stallBit s = true ↔ stepBody i s = .held := by
  simp [stallBit, busy, running]

/-- With a command running and an empty script, the step is that command's. -/
theorem step_eq_exec {s : State} {i : Instr} (busy : s.phase = .busy) (running : runningCommand s = some i)
    (noMoves : s.script = []) : step s = exec i s := by
  simp [step, nextMove, noMoves, engineTurn, busy, running]

/-- A step that takes effect ends the command or counts itself in STEPS (40_engine.md R155, R163). -/
theorem StepEffect.idle_or_counted {i : Instr} {s t : State} (h : StepEffect i s t) :
    t.phase = .idle ∨ t.steps = s.steps + 1 := by
  cases h with
  | answered | cleared | recorded | ended | found => exact .inl rfl
  | _ => exact .inr (by simp)

/-- No effective step of a BUSY engine leaves the state as it is. -/
theorem StepEffect.ne_of_busy {i : Instr} {s t : State} (h : StepEffect i s t) (busy : s.phase = .busy) : t ≠ s := by
  rintro rfl
  rcases h.idle_or_counted with idle | counted
  · exact Phase.noConfusion (idle.symm.trans busy)
  · bv_omega

/-- A BUSY engine's step answers the same state exactly when it is held (40_engine.md R160). -/
theorem exec_eq_self_iff_held {i : Instr} {s : State} (busy : s.phase = .busy) :
    exec i s = .next s ↔ stepBody i s = .held := by
  rw [exec_eq_commit, commit_next]
  constructor
  · rintro (effective | ⟨held, _⟩)
    · exact absurd rfl ((stepBody_effect effective).ne_of_busy busy)
    · exact held
  · exact fun held => .inr ⟨held, rfl⟩

end Sys2Proof.Machine

namespace Sys2Proof.Claims

open Sys2Proof.Machine

/-- Settles O20: STALL and an unchanged state both say that the running command's step is held. -/
theorem stallExactlyWhenHeld : Obligations.StallExactlyWhenHeld := by
  intro s i busy running noMoves
  have stall : (regValue .status s).toNat / 2 ^ 8 % 2 = (stallBit s).toNat := statusWord_stall s (stallBit s)
  rw [stall, Bool.toNat_eq_one, stallBit_iff_held busy running, step_eq_exec busy running noMoves,
    exec_eq_self_iff_held busy]

end Sys2Proof.Claims
end

section
/-! Two engine steps that end alike: what the shared operations of a step make of states that the step cannot tell
apart. One rule per operation, whatever relation the states after the step are to stand in. -/

namespace Sys2Proof.Machine

/-- Both steps take effect, in states that `R` relates, or both are held, or both stop with the same fault. -/
inductive StepResult.Alike (R : State → State → Prop) : StepResult → StepResult → Prop
  | done {t t' : State} (related : R t t') : Alike R (.done t) (.done t')
  | held : Alike R .held .held
  | fault (f : Fault) : Alike R (.fault f) (.fault f)

open StepResult (Alike)

variable {R : State → State → Prop} {s s' : State}

/-- A test that both steps answer alike. -/
theorem ite_alike {P : Prop} [Decidable P] {a b a' b' : StepResult} (yes : P → Alike R a a')
    (no : ¬ P → Alike R b b') : Alike R (if P then a else b) (if P then a' else b') := by
  split
  · exact yes ‹_›
  · exact no ‹_›

/-- A span that both buffers read as the same bytes, or with the same fault. -/
theorem withBytes_alike {a n : Nat} {k k' : List Byte → StepResult}
    (read : memRead s'.ibuf a n = memRead s.ibuf a n) (rest : ∀ bs, Alike R (k bs) (k' bs)) :
    Alike R (withBytes s a n k) (withBytes s' a n k') := by
  unfold withBytes
  rw [read]
  split
  · exact rest _
  · exact .fault _

/-- A byte that both buffers read alike, written or not. -/
theorem withByte_alike {a : Nat} {k k' : Byte → StepResult} (read : byteAt s'.ibuf a = byteAt s.ibuf a)
    (rest : ∀ b, Alike R (k b) (k' b)) : Alike R (withByte s a k) (withByte s' a k') := by
  unfold withByte readByte
  rw [read]
  cases byteAt s.ibuf a with
  | none => exact .fault _
  | some b => exact rest b

/-- A record that both FIFOs have room for, or neither. -/
theorem push_alike {record : List Word} {k k' : State → StepResult}
    (room : s'.fifo.length + record.length ≤ s'.params.outDepth ↔ s.fifo.length + record.length ≤ s.params.outDepth)
    (rest : Alike R (k (appendWords record s)) (k' (appendWords record s'))) :
    Alike R (push s record k) (push s' record k') := by
  simp only [push, room]
  exact ite_alike (fun _ => rest) (fun _ => .held)

end Sys2Proof.Machine
end

section
/-! The engine never reads a byte at or above `L` (20_memory.md R72): with the buffer replaced by one that has the same
bytes below `L`, every step ends alike, its next state differing in the buffer only. -/

namespace Sys2Proof.Machine

open StepResult (Alike)

/-- The buffer `m` has the same bytes below `L` as the state's own, the same of them written. -/
abbrev SameBelowLength (s : State) (m : Memory) : Prop := ∀ a < bufferLength s, byteAt m a = byteAt s.ibuf a

/-- The second state is the first with the buffer `m`. -/
abbrev Rebuffered (m : Memory) (t t' : State) : Prop := t' = { t with ibuf := m }

variable {s : State} {m : Memory}

/-- A span that ends at or below `L` reads alike in both buffers. -/
theorem SameBelowLength.memRead_eq (same : SameBelowLength s m) {a n : Nat} (inside : a + n ≤ bufferLength s) :
    memRead m a n = memRead s.ibuf a n :=
  memRead_congr fun i below => same (a + i) (by omega)

/-- A one-shot that tests its span against `L` and answers from the span's bytes. -/
theorem spanAnswer_alike (same : SameBelowLength s m) {a n needed : Nat} {short : Results}
    {answer : List Byte → Results} (inside : a + n ≤ needed) :
    Alike (Rebuffered m)
      (if bufferLength s < needed then .done (finish .truncated (setRes short s))
        else withBytes s a n fun bs => .done (finish .ok (setRes (answer bs) s)))
      (if bufferLength s < needed then .done (finish .truncated (setRes short { s with ibuf := m }))
        else withBytes { s with ibuf := m } a n fun bs =>
          .done (finish .ok (setRes (answer bs) { s with ibuf := m }))) :=
  ite_alike (fun _ => .done rfl) fun _ => withBytes_alike (same.memRead_eq (by omega)) fun _ => .done rfl

/-- A one-shot's record is pushed with the buffer out of sight. -/
theorem pushOne_alike {record : List Word} {invalid : Bool} {c : Code} :
    Alike (Rebuffered m) (pushOne s record invalid c) (pushOne { s with ibuf := m } record invalid c) :=
  push_alike Iff.rfl (.done rfl)

theorem Rebuffered.setOff {t t' : State} (h : Rebuffered m t t') (v : Nat) :
    Rebuffered m (setOff v t) (setOff v t') := by
  rw [h]
  rfl

/-- A scan's record is pushed, counted and chained with the buffer out of sight, where what follows is too. -/
theorem pushHeader_alike {record : Bool → List Word} {invalid : Bool} {size advance : Nat} {after : State → State}
    (after_alike : ∀ t, Rebuffered m (after t) (after { t with ibuf := m })) :
    Alike (Rebuffered m) (pushHeader s record invalid size advance after)
      (pushHeader { s with ibuf := m } record invalid size advance after) :=
  push_alike Iff.rfl (.done (.setOff (after_alike _) _))

theorem adtsDecodeBody_alike (same : SameBelowLength s m) :
    Alike (Rebuffered m) (adtsDecodeBody s) (adtsDecodeBody { s with ibuf := m }) :=
  ite_alike
    (fun decodable =>
      have nineteen : arg0Value s + 19 ≤ bufferLength s := of_decide_eq_true decodable
      withBytes_alike (same.memRead_eq (by omega)) fun _ => pushOne_alike)
    fun _ => .done rfl

theorem adtsScanBody_alike (same : SameBelowLength s m) :
    Alike (Rebuffered m) (adtsScanBody s) (adtsScanBody { s with ibuf := m }) := by
  refine ite_alike (fun inside => ?_) fun _ => .done rfl
  refine withBytes_alike (same.memRead_eq (by omega)) fun sync => ?_
  refine ite_alike (fun _ => ite_alike (fun decodable => ?_) fun _ => .done rfl) fun _ => .done rfl
  have nineteen : s.off.toNat + 19 ≤ bufferLength s := of_decide_eq_true decodable
  exact withBytes_alike (same.memRead_eq (by omega)) fun _ => pushHeader_alike fun _ => rfl

theorem mp3DecodeBody_alike (same : SameBelowLength s m) :
    Alike (Rebuffered m) (mp3DecodeBody s) (mp3DecodeBody { s with ibuf := m }) :=
  ite_alike (fun _ => .done rfl) fun _ => withBytes_alike (same.memRead_eq (by omega)) fun _ => pushOne_alike

theorem mp3ScanBody_alike (same : SameBelowLength s m) :
    Alike (Rebuffered m) (mp3ScanBody s) (mp3ScanBody { s with ibuf := m }) := by
  refine ite_alike (fun inside => ?_) fun _ => .done rfl
  refine withBytes_alike (same.memRead_eq (by omega)) fun sync => ite_alike (fun _ => ?_) fun _ => .done rfl
  refine withBytes_alike (same.memRead_eq (by omega)) fun _ => ite_alike (fun _ => ?_) fun _ => .done rfl
  exact pushHeader_alike fun _ => rfl

/-- ID3_FIND reads the flags byte, the sixth of the ten, last. -/
theorem id3FindBody_alike (same : SameBelowLength s m) :
    Alike (Rebuffered m) (id3FindBody s) (id3FindBody { s with ibuf := m }) := by
  refine ite_alike (fun inside => ?_) fun _ => .done rfl
  refine withBytes_alike (same.memRead_eq (by omega)) fun front => ?_
  refine withBytes_alike (same.memRead_eq (by omega)) fun size => ite_alike (fun _ => ?_) fun _ => .done rfl
  exact withByte_alike (same _ (by omega)) fun _ => .done rfl

/-- LAME_WINDOW clips its window at `L` (43_mp3.md R275). -/
theorem lameWindowBody_alike (same : SameBelowLength s m) :
    Alike (Rebuffered m) (lameWindowBody s) (lameWindowBody { s with ibuf := m }) := by
  refine ite_alike (fun _ => .done rfl) fun nonempty => ?_
  have inside : arg0Value s + 39 + lameCount s ≤ bufferLength s := by
    unfold lameCount at nonempty ⊢
    omega
  exact withBytes_alike (same.memRead_eq inside) fun _ => pushOne_alike

/-- A page is decoded from bytes below `L` (44_ogg.md R312). -/
theorem withPage_alike (same : SameBelowLength s m) {off : Nat} {page page' : OggPage → StepResult}
    {truncated truncated' : StepResult} (whole : ∀ p, Alike (Rebuffered m) (page p) (page' p))
    (cut : Alike (Rebuffered m) truncated truncated') :
    Alike (Rebuffered m) (withPage s off page truncated) (withPage { s with ibuf := m } off page' truncated') := by
  refine ite_alike (fun fixedInside => ?_) fun _ => cut
  refine withByte_alike (same _ (by omega)) fun seg => ite_alike (fun tableInside => ?_) fun _ => cut
  refine withBytes_alike (same.memRead_eq (by omega)) fun fixed => ?_
  exact withBytes_alike (same.memRead_eq tableInside) fun table => whole _

theorem oggDecodeBody_alike (same : SameBelowLength s m) :
    Alike (Rebuffered m) (oggDecodeBody s) (oggDecodeBody { s with ibuf := m }) :=
  withPage_alike same (fun _ => pushOne_alike) (.done rfl)

theorem oggScanBody_alike (same : SameBelowLength s m) :
    Alike (Rebuffered m) (oggScanBody s) (oggScanBody { s with ibuf := m }) := by
  refine ite_alike (fun inside => ?_) fun _ => .done rfl
  refine withBytes_alike (same.memRead_eq (by omega)) fun magic => ite_alike (fun _ => ?_) fun _ => .done rfl
  exact withPage_alike same (fun _ => pushHeader_alike fun _ => rfl) (.done rfl)

/-- The embedded TOC byte is read only where it lies below `L` (45_opus.md R343). -/
theorem embeddedToc_alike (same : SameBelowLength s m) {off : Nat} {r : Results} {k k' : Results → StepResult}
    (rest : ∀ r, Alike (Rebuffered m) (k r) (k' r)) :
    Alike (Rebuffered m) (embeddedToc s off r k) (embeddedToc { s with ibuf := m } off r k') := by
  unfold embeddedToc
  cases s.params.opusTocOffset with
  | none => exact rest _
  | some d => exact ite_alike (fun _ => rest _) fun inside => withByte_alike (same _ (by omega)) fun _ => rest _

theorem opusheadFindBody_alike (same : SameBelowLength s m) :
    Alike (Rebuffered m) (opusheadFindBody s) (opusheadFindBody { s with ibuf := m }) := by
  refine ite_alike (fun inside => ?_) fun _ => .done rfl
  refine withBytes_alike (same.memRead_eq (by omega)) fun magic => ite_alike (fun _ => ?_) fun _ => .done rfl
  refine ite_alike (fun headInside => ?_) fun _ => .done rfl
  exact withBytes_alike (same.memRead_eq (by omega)) fun _ => embeddedToc_alike same fun _ => .done rfl

/-- No command's engine step looks at a byte at or above `L`. -/
theorem stepBody_alike (same : SameBelowLength s m) (i : Instr) :
    Alike (Rebuffered m) (stepBody i s) (stepBody i { s with ibuf := m }) := by
  cases i with
  | nop | fifoClear | extract | tocDecode => exact .done rfl
  | extractBuf | adtsSync | mp3Sync | oggSync | opustagsTest => exact spanAnswer_alike same (Nat.le_refl _)
  | xingDetect => exact spanAnswer_alike same (Nat.le_refl (arg0Value s + 36 + 4))
  | adtsDecode => exact adtsDecodeBody_alike same
  | adtsScan => exact adtsScanBody_alike same
  | mp3Decode => exact mp3DecodeBody_alike same
  | mp3Scan => exact mp3ScanBody_alike same
  | id3Find => exact id3FindBody_alike same
  | lameWindow => exact lameWindowBody_alike same
  | oggDecode => exact oggDecodeBody_alike same
  | oggScan => exact oggScanBody_alike same
  | opusheadFind => exact opusheadFindBody_alike same

end Sys2Proof.Machine

namespace Sys2Proof.Claims

open Sys2Proof.Machine

/-- Steps that end alike are committed alike: a held one leaves each state with its own buffer. -/
theorem commit_of_alike {s : State} {m : Memory} {r r' : StepResult} (alike : r.Alike (Rebuffered m) r') :
    commit { s with ibuf := m } r' = withIbuf m (commit s r) := by
  cases alike with
  | done related => rw [related]; rfl
  | held => rfl
  | fault f => rfl

/-- Settles O53: every command's step ends alike in the two buffers, and so its outcome differs in the buffer only. -/
theorem bytesBeyondTheBufferAreNeverRead : Obligations.BytesBeyondTheBufferAreNeverRead := by
  intro s m i same
  rw [exec_eq_commit, exec_eq_commit]
  exact commit_of_alike (stepBody_alike same i)

end Sys2Proof.Claims
end

section
/-! The IBUF port (20_memory.md R71, R81). -/

namespace Sys2Proof.Machine

theorem ibufWrite_eq {a : Nat} {s : State} (inside : a < s.params.ibufCap)
    (allowed : ¬ (s.phase = .busy ∧ a < bufferLength s)) (v : Byte) :
    ibufWrite a v s = .next { s with ibuf := setByte s.ibuf a v } := by
  simp only [ibufWrite, if_pos inside, if_neg allowed]

theorem ibufWrite_whileBusy {a : Nat} {s : State} (inside : a < s.params.ibufCap) (busy : s.phase = .busy)
    (below : a < bufferLength s) (v : Byte) : ibufWrite a v s = .refused (.ibufWriteWhileBusy a) := by
  simp only [ibufWrite, if_pos inside, if_pos (And.intro busy below)]

theorem ibufWrite_outside {a : Nat} {s : State} (outside : s.params.ibufCap ≤ a) (v : Byte) :
    ibufWrite a v s = .refused (.outsideIbuf a) := by
  simp only [ibufWrite, if_neg (Nat.not_lt.2 outside)]

theorem ibufRead_written {a : Nat} {s : State} {b : Byte} (inside : a < s.params.ibufCap)
    (written : byteAt s.ibuf a = some b) : ibufRead a s = .next (reply (.byte b) s) := by
  simp only [ibufRead, if_pos inside, readByte, written]

theorem ibufRead_unwritten {a : Nat} {s : State} (inside : a < s.params.ibufCap) (unwritten : byteAt s.ibuf a = none) :
    ibufRead a s = .fault (.unwrittenByte a) := by
  simp only [ibufRead, if_pos inside, readByte, unwritten]

theorem ibufRead_outside {a : Nat} {s : State} (outside : s.params.ibufCap ≤ a) :
    ibufRead a s = .refused (.outsideIbuf a) := by
  simp only [ibufRead, if_neg (Nat.not_lt.2 outside)]

end Sys2Proof.Machine

namespace Sys2Proof.Claims

open Sys2Proof.Machine

/-- Settles O17, a clause at a time: the new buffer is `setByte`'s, which moves the one byte. -/
theorem ibufPortMovesOneByte : Obligations.IbufPortMovesOneByte := by
  intro s a v
  exact ⟨fun inside allowed => ⟨setByte s.ibuf a v, ibufWrite_eq inside allowed v, byteAt_setByte_same _ a v,
      fun x other => byteAt_setByte_other _ v other⟩,
    fun inside busy below => ibufWrite_whileBusy inside busy below v, fun outside => ibufWrite_outside outside v,
    ibufRead_written, ibufRead_unwritten, ibufRead_outside⟩

end Sys2Proof.Claims
end

section
/-! The engine's turn and the host's, and the command a step runs (20_memory.md R80, 40_engine.md R150, R155). -/

namespace Sys2Proof.Machine

theorem engineTurn_of_idle {s : State} (idle : s.phase = .idle) : engineTurn s = .next s := by
  simp only [engineTurn, idle]

theorem engineTurn_of_busy {s : State} {i : Instr} (busy : s.phase = .busy) (running : runningCommand s = some i) :
    engineTurn s = exec i s := by
  simp only [engineTurn, busy, running]

theorem step_of_noMoves {s : State} (noMoves : s.script = []) : step s = engineTurn s := by
  simp only [step, nextMove, noMoves]

theorem step_of_nextMove {s : State} {m : Move} {rest : List Move} (next : s.script = m :: rest) :
    step s = takeMove m { s with script := rest } := by
  simp only [step, nextMove, next]

/-- A byte with its upper bits 0 as a command word decodes by the opcode map alone (30_encoding.md R100). -/
theorem decodeOpcode_of_decode {opc : Byte} {i : Instr} (h : decode (opc.setWidth 32) = .command i) :
    decodeOpcode opc = some i := by
  have opcode : opcField (opc.setWidth 32) = opc := by
    rw [opcField, ← BitVec.setWidth_eq_extractLsb' (by omega), BitVec.setWidth_setWidth_of_le _ (by omega),
      BitVec.setWidth_eq]
  unfold decode at h
  rw [opcode] at h
  split at h
  · split at h
    · rename_i j known
      cases h
      exact known
    · cases h
  · cases h

end Sys2Proof.Machine

namespace Sys2Proof.Claims

open Sys2Proof.Machine

/-- Settles O19: `op` names the command its word decodes to, and the script says whose turn the step is. -/
theorem stepRunsTheDecodedCommand : Obligations.StepRunsTheDecodedCommand := by
  refine ⟨fun s i busy word => ?_, fun s m rest => ⟨step_of_nextMove, fun idle noMoves => ?_,
    fun idle next => ?_⟩⟩
  · have running : runningCommand s = some i := decodeOpcode_of_decode word
    refine ⟨step_eq_exec busy running, fun rest next => ?_⟩
    rw [step_of_nextMove next]
    exact engineTurn_of_busy (s := { s with script := rest }) busy running
  · rw [step_of_noMoves noMoves, engineTurn_of_idle idle]
  · rw [step_of_nextMove next]
    exact engineTurn_of_idle (s := { s with script := rest }) idle

end Sys2Proof.Claims
end

section
/-! The command word's two fields, and what the decoder and the encoder say of each (30_encoding.md R100 to R102). -/

namespace Sys2Proof

/-- RSVD and OPC together are the whole command word (R100). -/
theorem rsvdField_append_opcField (w : Word) : rsvdField w ++ opcField w = w := by
  have whole : rsvdField w ++ opcField w = w.extractLsb' 0 32 :=
    BitVec.extractLsb'_append_extractLsb'_eq_extractLsb' (len₁ := 8) (len₂ := 24) rfl
  rw [whole, BitVec.extractLsb'_eq_self]

theorem eq_iff_fields_eq {w v : Word} : w = v ↔ rsvdField w = rsvdField v ∧ opcField w = opcField v := by
  constructor
  · rintro rfl
    exact ⟨rfl, rfl⟩
  · rintro ⟨rsvd, opc⟩
    rw [← rsvdField_append_opcField w, rsvd, opc, rsvdField_append_opcField]

theorem rsvdField_eq_zero_iff (w : Word) : rsvdField w = 0 ↔ w.toNat / 2 ^ 8 = 0 := by
  have bound := w.isLt
  rw [rsvdField, ← BitVec.toNat_inj, BitVec.extractLsb'_toNat, Nat.shiftRight_eq_div_pow]
  simp only [BitVec.ofNat_eq_ofNat, BitVec.toNat_ofNat]
  omega

theorem opcField_toNat (w : Word) : (opcField w).toNat = w.toNat % 2 ^ 8 := by
  rw [opcField, BitVec.extractLsb'_toNat, Nat.shiftRight_zero]

/-- `CMD = zext_32(OPC)` (R101). -/
@[simp] theorem rsvdField_encode (i : Instr) : rsvdField (encode i) = 0 := by cases i <;> rfl

@[simp] theorem decodeOpcode_opcField_encode (i : Instr) : decodeOpcode (opcField (encode i)) = some i := by
  cases i <;> rfl

/-- Each row of the opcode map holds the OPC field of its command's word (R101). -/
theorem opcField_encode_of_mem_opcodeMap : ∀ row ∈ opcodeMap, opcField (encode row.2) = row.1 := by decide

/-- The opcode map gives a command to that command's own opcode and to no other. -/
theorem decodeOpcode_eq_some_iff {opc : Byte} {i : Instr} :
    decodeOpcode opc = some i ↔ opc = opcField (encode i) := by
  constructor
  · intro known
    obtain ⟨before, after, rows, _⟩ := List.lookup_eq_some_iff.1 known
    have row : (opc, i) ∈ opcodeMap := by simp [rows]
    exact (opcField_encode_of_mem_opcodeMap _ row).symm
  · rintro rfl
    exact decodeOpcode_opcField_encode i

theorem opcodeMap_opcodes : opcodeMap.map (fun row => row.1.toNat) = legalOpcodes := rfl

/-- The opcode map knows exactly the 19 legal opcodes (R101). -/
theorem decodeOpcode_eq_none_iff {opc : Byte} : decodeOpcode opc = none ↔ opc.toNat ∉ legalOpcodes := by
  rw [decodeOpcode, List.lookup_eq_none_iff, ← opcodeMap_opcodes, List.mem_map, not_exists]
  refine forall_congr' fun row => ?_
  rw [not_and, BitVec.toNat_inj, bne_iff_ne, ne_comm]

/-- A word is a command exactly when its RSVD is 0 and the opcode map gives its OPC that command. -/
theorem decode_eq_command_iff {w : Word} {i : Instr} :
    decode w = .command i ↔ rsvdField w = 0 ∧ decodeOpcode (opcField w) = some i := by
  by_cases rsvd : rsvdField w = 0
  · rw [decode, if_pos rsvd, and_iff_right rsvd]
    cases decodeOpcode (opcField w) <;> simp
  · rw [decode, if_neg rsvd]
    simp only [reduceCtorEq, rsvd, false_and]

/-- A word is illegal exactly when its RSVD is not 0 or the opcode map does not know its OPC (R102). -/
theorem decode_illegal_iff {w : Word} :
    (∃ why, decode w = .illegal why) ↔ rsvdField w ≠ 0 ∨ decodeOpcode (opcField w) = none := by
  by_cases rsvd : rsvdField w = 0
  · rw [decode, if_pos rsvd, or_iff_right (not_not_intro rsvd)]
    cases decodeOpcode (opcField w) <;> simp
  · rw [decode, if_neg rsvd]
    exact iff_of_true ⟨_, rfl⟩ (.inl rsvd)

end Sys2Proof

namespace Sys2Proof.Claims

/-- Settles O2: each of the word's two fields is the command word's. -/
theorem decodeEncodeAgree : Obligations.DecodeEncodeAgree := by
  intro w i
  rw [decode_eq_command_iff, decodeOpcode_eq_some_iff, eq_iff_fields_eq, rsvdField_encode]

/-- Settles O3: the two fields the decoder looks at, as numbers. -/
theorem illegalWordsAreExactly : Obligations.IllegalWordsAreExactly := by
  intro w
  rw [decode_illegal_iff, Ne, rsvdField_eq_zero_iff, decodeOpcode_eq_none_iff, opcField_toNat]
  rfl

/-- Settles O1: each sample is the word of its command. -/
theorem sampleWordsDecode : Obligations.SampleWordsDecode := by
  have decodes (i : Instr) : decode (encode i) = .command i := (decodeEncodeAgree _ i).2 rfl
  exact ⟨decodes .fifoClear, decodes .extractBuf, decodes .adtsScan, decodes .lameWindow, decodes .oggDecode,
    decodes .tocDecode⟩

end Sys2Proof.Claims
end

section
/-! The words of several fields that a command line and a record begin with, as numbers (30_encoding.md R104, R110),
and the records an engine step pushes (R110 to R115). -/

namespace Sys2Proof.Machine

/-- ARG1's fields at their weights (30_encoding.md R104). -/
theorem arg1Word_eq (f : ExtractFields) :
    arg1Word f = BitVec.ofNat 32 (f.w.toNat + f.s.toNat * 2 ^ 8 + f.nb.toNat * 2 ^ 16) := by
  apply BitVec.eq_of_toNat_eq
  have w := f.w.isLt
  have s := f.s.isLt
  have nb := f.nb.isLt
  simp only [arg1Word, toNat_append_eq_add, BitVec.toNat_ofNat]
  omega

/-- A record's word 0 at its fields' weights (30_encoding.md R110). -/
theorem recordHeader_toNat (type : Byte) (len : Nat) (flags : BitVec 15) (inc : Bool) :
    (recordHeader type len flags inc).toNat =
      type.toNat + len % 2 ^ 8 * 2 ^ 8 + flags.toNat * 2 ^ 16 + inc.toNat * 2 ^ 31 := by
  simp only [recordHeader, toNat_append_eq_add, toNat_bit, BitVec.toNat_ofNat]
  omega

section
variable (type : Byte) (len : Nat) (flags : BitVec 15) (inc : Bool)

/-- TYPE stands at bits 7:0 of a record's word 0. -/
theorem recordHeader_type : (recordHeader type len flags inc).toNat % 2 ^ 8 = type.toNat := by
  have type_lt := type.isLt
  rw [recordHeader_toNat]
  omega

/-- LEN stands at bits 15:8 of a record's word 0. -/
theorem recordHeader_len : (recordHeader type len flags inc).toNat / 2 ^ 8 % 2 ^ 8 = len % 2 ^ 8 := by
  have type_lt := type.isLt
  rw [recordHeader_toNat]
  omega

/-- FLAGS stand at bits 30:16 of a record's word 0. -/
theorem recordHeader_flags : (recordHeader type len flags inc).toNat / 2 ^ 16 % 2 ^ 15 = flags.toNat := by
  have type_lt := type.isLt
  have flags_lt := flags.isLt
  rw [recordHeader_toNat]
  omega

end

/-- The types and their flag bits as numbers. -/
theorem flagsDefined_iff {type : Byte} {flags : BitVec 15} :
    FlagsDefined type flags ↔
      (type.toNat = 1 ∧ flags.toNat < 2 ^ 4) ∨ (type.toNat = 2 ∧ flags.toNat < 2 ^ 5) ∨
        (type.toNat = 3 ∧ flags.toNat < 2 ^ 4) ∨ (type.toNat = 4 ∧ flags.toNat = 0) := by
  simp only [FlagsDefined, ← BitVec.toNat_inj (x := type)]
  rfl

/-- An engine step leaves the FIFO alone, empties it, or appends one record for which it has room
(40_engine.md R160, R165). -/
theorem StepEffect.fifo_cases {i : Instr} {s t : State} (h : StepEffect i s t) :
    t.fifo = s.fifo ∨ (i = .fifoClear ∧ t.fifo = []) ∨
      ∃ words inc, t.fifo = s.fifo ++ words ∧ RecordShape words inc ∧
        s.fifo.length + words.length ≤ s.params.outDepth := by
  cases h with
  | cleared isClear => exact .inr (.inl ⟨isClear, rfl⟩)
  | recorded c r words invalid walk buf shape room => exact .inr (.inr ⟨words, _, by simp, shape, room⟩)
  | frame words invalid size advance scan inside shape room => exact .inr (.inr ⟨words, _, by simp, shape, room⟩)
  | page words invalid size pageNum scan inside shape room => exact .inr (.inr ⟨words, _, by simp, shape, room⟩)
  | _ => exact .inl (by simp)

end Sys2Proof.Machine

namespace Sys2Proof.Claims

open Sys2Proof.Machine

/-- Settles O18: ARG1's word is its fields at their weights, and every other move is the line's own. -/
theorem extractorLineExpands : Obligations.ExtractorLineExpands := by
  intro i a0 f polls
  rw [← arg1Word_eq]
  rfl

/-- Settles O23: an appended record has the shape of 30_encoding.md R110, whose word 0 holds TYPE, LEN and the flags. -/
theorem stepsPushOneWholeRecord : Obligations.StepsPushOneWholeRecord := by
  intro s t i h
  rcases exec_next h with effect | ⟨_, rfl⟩
  · rcases effect.fifo_cases with same | cleared | ⟨words, inc, pushed, shape, room⟩
    · exact .inl same
    · exact .inr (.inl cleared)
    · obtain ⟨least, most, type, flags, rest, defined, record⟩ := shape
      have length : words.length = rest.length + 1 := by rw [record, List.length_cons]
      refine .inr (.inr ⟨_, rest, record ▸ pushed, by omega, by omega, ?_, ?_, ?_⟩)
      · rwa [pushed, List.length_append]
      · rw [recordHeader_len, Nat.mod_eq_of_lt (by omega), length]
      · rw [recordHeader_type, recordHeader_flags]
        exact flagsDefined_iff.1 defined
  · exact .inl rfl

end Sys2Proof.Claims
end

section
/-! The life of a command: what acceptance, the engine's steps and the host's moves leave of it (40_engine.md R151,
R154, R156; 70_reset_and_hazards.md R458). -/

namespace Sys2Proof.Machine

/-- The running command, its operands' check and its results so far are the same. -/
structure CommandKept (s t : State) : Prop where
  params : t.params = s.params
  bufLen : t.bufLen = s.bufLen
  cmd : t.cmd = s.cmd
  op : t.op = s.op
  code : t.code = s.code
  res : t.res = s.res
  done : s.done = false → t.done = false

/-- An engine step ends the command or leaves all of it but STEPS, OFF and the counters alone. -/
theorem StepEffect.idle_or_commandKept {i : Instr} {s t : State} (h : StepEffect i s t) :
    t.phase = .idle ∨ CommandKept s t := by
  cases h with
  | answered | cleared | recorded | ended | found => exact .inl rfl
  | _ => exact .inr (by constructor <;> simp)

/-- A register write starts a command, leaves the engine IDLE, or leaves phase and command alone (40_engine.md R151,
R152; 10_state.md R20). -/
theorem WriteEffect.command_cases {v : Word} {s t : State} (h : WriteEffect v s t) :
    t.phase = .idle ∨ (t.phase = s.phase ∧ CommandKept s t) ∨
      ∃ i, decode v = .command i ∧ outOfRange i s = false ∧ t = startEngine v (latchCommand v s) := by
  cases h with
  | softReset | illegal | range => exact .inl rfl
  | bufLen idle | arg0 idle | arg1 idle => exact .inl idle
  | started idle i word inside => exact .inr (.inr ⟨i, word, inside, rfl⟩)
  | statusCleared => exact .inr (.inl ⟨rfl, by constructor <;> simp +contextual⟩)
  | ignored | interruptEnable | rejected => exact .inr (.inl ⟨rfl, by constructor <;> simp⟩)

/-- A read of OUT_DATA is no matter of the command's. -/
theorem popOutData_commandKept (s : State) : (popOutData s).phase = s.phase ∧ CommandKept s (popOutData s) := by
  unfold popOutData
  split <;> exact ⟨rfl, by constructor <;> simp⟩

end Sys2Proof.Machine

namespace Sys2Proof.Claims

open Sys2Proof.Machine

/-- While the engine is IDLE the invariant asks nothing. -/
theorem LifecycleInv.of_idle {t : State} (idle : t.phase = .idle) : LifecycleInv t :=
  fun busy => Phase.noConfusion (idle.symm.trans busy)

/-- The invariant speaks of the command only. -/
theorem LifecycleInv.of_kept {s t : State} (inv : LifecycleInv s) (phase : t.phase = s.phase)
    (kept : CommandKept s t) : LifecycleInv t := by
  intro busy
  obtain ⟨params, bufLen, cmd, op, code, res, done⟩ := kept
  obtain ⟨running, notDone, okCode, noResult⟩ := inv (phase.symm.trans busy)
  rw [runningCommand, len, params, bufLen, cmd, op, code, res]
  exact ⟨running, done notDone, okCode, noResult⟩

/-- Acceptance establishes the invariant: `op` and CMD hold the accepted word (40_engine.md R151, R154). -/
theorem LifecycleInv.startEngine {s : State} {v : Word} {i : Instr} (word : decode v = .command i)
    (inside : outOfRange i s = false) : LifecycleInv (startEngine v (latchCommand v s)) := by
  obtain rfl := (decodeEncodeAgree v i).1 word
  refine fun _ => ⟨⟨i, rfl, decodeOpcode_opcField_encode i, fun reads => ?_⟩, rfl, rfl, rfl⟩
  rw [outOfRange, reads, Bool.true_and, decide_eq_false_iff_not] at inside
  exact Nat.not_lt.1 inside

/-- Every move keeps the invariant. -/
theorem LifecycleInv.of_moveEffect {s t : State} (inv : LifecycleInv s) (h : MoveEffect s t) : LifecycleInv t := by
  cases h with
  | unchanged => exact inv
  | ran i t busy running effect =>
    intro stillBusy
    rcases effect.idle_or_commandKept with idle | kept
    · exact LifecycleInv.of_idle idle stillBusy
    · exact inv.of_kept (stillBusy.trans busy.symm) kept stillBusy
  | reset => exact .of_idle rfl
  | read r => exact inv
  | popped r =>
    obtain ⟨phase, kept⟩ := popOutData_commandKept s
    have popped : LifecycleInv (popOutData s) := inv.of_kept phase kept
    exact popped
  | wrote r v =>
    rcases (writeReg_effect r v s).command_cases with idle | ⟨phase, kept⟩ | ⟨i, word, inside, started⟩
    · exact .of_idle idle
    · exact inv.of_kept phase kept
    · exact started ▸ .startEngine word inside
  | ibufByte a v inside => exact inv

/-- Settles O58, by cases on the move: the script is no part of the invariant, so it holds in the state the move
starts from. -/
theorem stepKeepsLifecycleInv : Obligations.StepKeepsLifecycleInv := by
  intro s t inv h
  rcases step_effect h with effect | ⟨rest, effect⟩
  · exact inv.of_moveEffect effect
  · have started : LifecycleInv { s with script := rest } := inv
    exact started.of_moveEffect effect

end Sys2Proof.Claims
end

section
/-! An Ogg page as a step reads it (44_ogg.md R311, R312): the bytes are read through `withPage` only, whatever the step
makes of the page. -/

namespace Sys2Proof.Machine

/-- A span whose every byte is written is read. -/
theorem memRead_of_written {m : Memory} {a n : Nat} (written : ∀ i < n, byteAt m (a + i) ≠ none) :
    ∃ bs, memRead m a n = .ok bs := by
  cases read : memRead m a n with
  | ok bs => exact ⟨bs, rfl⟩
  | error f =>
    obtain ⟨i, inside, unwritten, _⟩ := memRead_error read
    exact absurd unwritten (written i inside)

/-- The segment count a page is decoded with is the byte that sized its table (44_ogg.md R311). -/
theorem oggDecode_segments {m : Memory} {off : Nat} {seg : Byte} {fixed : List Byte} (table : List Byte)
    (count : byteAt m (off + 26) = some seg) (fields : memRead m (off + 5) 22 = .ok fixed) :
    (oggDecode fixed table).segments = seg := by
  obtain ⟨length, bytes⟩ := memRead_ok.1 fields
  have last : fixed[21]'(by omega) = seg := Option.some.inj ((bytes 21 (by omega)).symm.trans count)
  have sliced : slice fixed 21 1 = [seg] := by
    rw [slice, List.drop_eq_getElem_cons (by omega : 21 < fixed.length), last]
    rfl
  simp [oggDecode, leField, sliced, le]

section
variable {s : State} {off : Nat}

/-- Fewer than 27 bytes are left: no page (R312). -/
theorem withPage_of_short (short : bufferLength s < off + 27) (page : OggPage → StepResult) (cut : StepResult) :
    withPage s off page cut = cut :=
  if_neg (Nat.not_le.2 short)

/-- The segment table reaches beyond `L`: no page (R312). -/
theorem withPage_of_shortTable {seg : Byte} (count : byteAt s.ibuf (off + 26) = some seg)
    (short : bufferLength s < off + 27 + seg.toNat) (page : OggPage → StepResult) (cut : StepResult) :
    withPage s off page cut = cut := by
  by_cases fixedInside : off + 27 ≤ bufferLength s
  · rw [withPage, if_pos fixedInside, withByte_eq count, if_neg (Nat.not_le.2 short)]
  · exact withPage_of_short (Nat.not_le.1 fixedInside) page cut

/-- The page that stands whole below `L`. -/
theorem withPage_of_whole {seg : Byte} {fixed table : List Byte} (count : byteAt s.ibuf (off + 26) = some seg)
    (inside : off + 27 + seg.toNat ≤ bufferLength s) (fields : memRead s.ibuf (off + 5) 22 = .ok fixed)
    (lacing : memRead s.ibuf (off + 27) seg.toNat = .ok table) (page : OggPage → StepResult) (cut : StepResult) :
    withPage s off page cut = page (oggDecode fixed table) := by
  rw [withPage, if_pos (by omega), withByte_eq count, if_pos inside, withBytes_eq fields, withBytes_eq lacing]

end

/-- What decoding a page comes to: a fault, no page, or a page with a lacing value for each segment. -/
theorem withPage_cases (s : State) (off : Nat) :
    (∃ f, ∀ page cut, withPage s off page cut = .fault f) ∨ (∀ page cut, withPage s off page cut = cut) ∨
      ∃ p, p.segmentSizeTable.length = p.segments.toNat ∧ ∀ page cut, withPage s off page cut = page p := by
  by_cases fixedInside : off + 27 ≤ bufferLength s
  · cases count : byteAt s.ibuf (off + 26) with
    | none => exact .inl ⟨_, fun _ _ => by rw [withPage, if_pos fixedInside, withByte, readByte, count]⟩
    | some seg =>
      by_cases inside : off + 27 + seg.toNat ≤ bufferLength s
      · cases fields : memRead s.ibuf (off + 5) 22 with
        | error f =>
          exact .inl ⟨f, fun _ _ => by
            rw [withPage, if_pos fixedInside, withByte_eq count, if_pos inside, withBytes, fields]⟩
        | ok fixed =>
          cases lacing : memRead s.ibuf (off + 27) seg.toNat with
          | error f =>
            exact .inl ⟨f, fun _ _ => by
              rw [withPage, if_pos fixedInside, withByte_eq count, if_pos inside, withBytes_eq fields, withBytes,
                lacing]⟩
          | ok table =>
            refine .inr (.inr ⟨oggDecode fixed table, ?_, withPage_of_whole count inside fields lacing⟩)
            rw [oggDecode_segments table count fields]
            exact (memRead_ok.1 lacing).1
      · exact .inr (.inl (withPage_of_shortTable count (Nat.not_le.1 inside)))
  · exact .inr (.inl (withPage_of_short (Nat.not_le.1 fixedInside)))

end Sys2Proof.Machine
end

section
/-! The engine does not look at the host's own state (40_engine.md R166): with the FIFO, the host's bits, its moves and
its replies replaced by another state's, every step ends alike and pushes the same words, where both FIFOs have room
for the largest record. -/

namespace Sys2Proof.Machine

open StepResult (Alike)

/-- The state with the host's own part, the FIFO included, of another. -/
def withHost (h t : State) : State :=
  { t with
    ie := h.ie, reject := h.reject, underflow := h.underflow, fifo := h.fifo, script := h.script
    replies := h.replies }

/-- After two steps, from `s` and from `s` with the host's part of `h`: the same words are pushed, and the second state
is the first with the host's part of `h`. -/
def PushedAlike (h s t t' : State) : Prop :=
  ∃ words, t.fifo = s.fifo ++ words ∧ t' = appendWords words (withHost h t)

/-- The FIFO has room for the largest record, 73 words (30_encoding.md R115). -/
abbrev RoomForRecord (s : State) : Prop := s.fifo.length + 73 ≤ s.params.outDepth

variable {h s : State}

/-- Two steps that push nothing. -/
theorem PushedAlike.of_noPush {t t' : State} (fifo : t.fifo = s.fifo) (host : t' = withHost h t) :
    PushedAlike h s t t' :=
  ⟨[], by simp [fifo], by simp [appendWords, host]⟩

theorem RoomForRecord.fits (room : RoomForRecord s) {words : List Word} {inc : Bool} (shape : RecordShape words inc) :
    s.fifo.length + words.length ≤ s.params.outDepth := by
  obtain ⟨_, most, _⟩ := shape
  omega

/-- A span that both buffers read alike, what follows knowing that its bytes were read. -/
theorem withBytes_alike_of_read {R : State → State → Prop} {s' : State} {a n : Nat} {k k' : List Byte → StepResult}
    (sameRead : memRead s'.ibuf a n = memRead s.ibuf a n)
    (rest : ∀ bs, memRead s.ibuf a n = .ok bs → Alike R (k bs) (k' bs)) :
    Alike R (withBytes s a n k) (withBytes s' a n k') := by
  unfold withBytes
  rw [sameRead]
  split
  · exact rest _ ‹_›
  · exact .fault _

theorem pushOne_hosted_alike (room : RoomForRecord s) (room' : RoomForRecord (withHost h s)) {words : List Word}
    {invalid : Bool} {c : Code} (shape : RecordShape words false) :
    Alike (PushedAlike h s) (pushOne s words invalid c) (pushOne (withHost h s) words invalid c) :=
  push_alike (iff_of_true (room'.fits shape) (room.fits shape)) (.done ⟨words, rfl, rfl⟩)

theorem PushedAlike.setOff {t t' : State} (alike : PushedAlike h s t t') (v : Nat) :
    PushedAlike h s (setOff v t) (setOff v t') := by
  obtain ⟨words, fifo, rfl⟩ := alike
  exact ⟨words, fifo, rfl⟩

theorem PushedAlike.seqCheck {t t' : State} (alike : PushedAlike h s t t') (pageNum : Word) :
    PushedAlike h s (seqCheck pageNum t) (seqCheck pageNum t') := by
  obtain ⟨words, fifo, rfl⟩ := alike
  exact ⟨words, fifo, rfl⟩

theorem pushHeader_hosted_alike (room : RoomForRecord s) (room' : RoomForRecord (withHost h s))
    {record : Bool → List Word} {invalid : Bool} {size advance : Nat} {after : State → State}
    (shape : RecordShape (record (incomplete s s.off.toNat)) (incomplete s s.off.toNat))
    (after_alike : ∀ t t', PushedAlike h s t t' → PushedAlike h s (after t) (after t')) :
    Alike (PushedAlike h s) (pushHeader s record invalid size advance after)
      (pushHeader (withHost h s) record invalid size advance after) :=
  push_alike (iff_of_true (room'.fits shape) (room.fits shape))
    (.done ((after_alike _ _ ⟨_, rfl, rfl⟩).setOff _))

/-- A one-shot that tests its span against `L` and answers from the span's bytes. -/
theorem spanAnswer_hosted_alike {a n needed : Nat} {short : Results} {answer : List Byte → Results} :
    Alike (PushedAlike h s)
      (if bufferLength s < needed then .done (finish .truncated (setRes short s))
        else withBytes s a n fun bs => .done (finish .ok (setRes (answer bs) s)))
      (if bufferLength s < needed then .done (finish .truncated (setRes short (withHost h s)))
        else withBytes (withHost h s) a n fun bs => .done (finish .ok (setRes (answer bs) (withHost h s)))) :=
  ite_alike (fun _ => .done (.of_noPush rfl rfl)) fun _ =>
    withBytes_alike rfl fun _ => .done (.of_noPush rfl rfl)

/-- Both steps read the same page. -/
theorem withPage_hosted_alike {off : Nat} {page page' : OggPage → StepResult} {cut cut' : StepResult}
    (whole : ∀ p, p.segmentSizeTable.length = p.segments.toNat → Alike (PushedAlike h s) (page p) (page' p))
    (short : Alike (PushedAlike h s) cut cut') :
    Alike (PushedAlike h s) (withPage s off page cut) (withPage (withHost h s) off page' cut') := by
  have sameBuffer : withPage (withHost h s) off page' cut' = withPage s off page' cut' := rfl
  rw [sameBuffer]
  rcases withPage_cases s off with ⟨f, stops⟩ | noPage | ⟨p, lacing, reads⟩
  · rw [stops, stops]
    exact .fault f
  · rwa [noPage, noPage]
  · rw [reads, reads]
    exact whole p lacing

/-- Both steps read the same embedded TOC byte. -/
theorem embeddedToc_hosted_alike {off : Nat} {r : Results} {k k' : Results → StepResult}
    (rest : ∀ r, Alike (PushedAlike h s) (k r) (k' r)) :
    Alike (PushedAlike h s) (embeddedToc s off r k) (embeddedToc (withHost h s) off r k') := by
  have sameBuffer : embeddedToc (withHost h s) off r k' = embeddedToc s off r k' := rfl
  rw [sameBuffer]
  unfold embeddedToc
  cases s.params.opusTocOffset with
  | none => exact rest _
  | some d => exact ite_alike (fun _ => rest _) fun _ => withByte_alike rfl fun _ => rest _

theorem adtsScanBody_hosted_alike (room : RoomForRecord s) (room' : RoomForRecord (withHost h s)) :
    Alike (PushedAlike h s) (adtsScanBody s) (adtsScanBody (withHost h s)) := by
  refine ite_alike (fun _ => withBytes_alike rfl fun sync => ite_alike (fun _ => ite_alike (fun _ => ?_) ?_) ?_) ?_
  · exact withBytes_alike rfl fun _ => pushHeader_hosted_alike room room' (adtsRecord_shape _ _ _) fun _ _ => id
  all_goals exact fun _ => .done (.of_noPush rfl rfl)

theorem mp3ScanBody_hosted_alike (room : RoomForRecord s) (room' : RoomForRecord (withHost h s)) :
    Alike (PushedAlike h s) (mp3ScanBody s) (mp3ScanBody (withHost h s)) := by
  refine ite_alike (fun _ => withBytes_alike rfl fun sync => ite_alike (fun _ => ?_) ?_) ?_
  · refine withBytes_alike rfl fun _ => ite_alike (fun _ => ?_) ?_
    · exact pushHeader_hosted_alike room room' (mpegRecord_shape _ _ _) fun _ _ => id
    · exact fun _ => .done (.of_noPush rfl rfl)
  all_goals exact fun _ => .done (.of_noPush rfl rfl)

theorem oggScanBody_hosted_alike (room : RoomForRecord s) (room' : RoomForRecord (withHost h s)) :
    Alike (PushedAlike h s) (oggScanBody s) (oggScanBody (withHost h s)) := by
  refine ite_alike (fun _ => withBytes_alike rfl fun magic => ite_alike (fun _ => ?_) ?_) ?_
  · refine withPage_hosted_alike (fun p lacing => ?_) (.done (.of_noPush rfl rfl))
    exact pushHeader_hosted_alike room room' (oggRecord_shape _ _ p lacing _) fun _ _ alike => alike.seqCheck _
  all_goals exact fun _ => .done (.of_noPush rfl rfl)

theorem id3FindBody_hosted_alike : Alike (PushedAlike h s) (id3FindBody s) (id3FindBody (withHost h s)) := by
  refine ite_alike (fun _ => ?_) fun _ => .done (.of_noPush rfl rfl)
  refine withBytes_alike rfl fun front => withBytes_alike rfl fun size => ite_alike (fun _ => ?_) ?_
  · exact withByte_alike rfl fun _ => .done (.of_noPush rfl rfl)
  · exact fun _ => .done (.of_noPush rfl rfl)

theorem opusheadFindBody_hosted_alike :
    Alike (PushedAlike h s) (opusheadFindBody s) (opusheadFindBody (withHost h s)) := by
  refine ite_alike (fun _ => withBytes_alike rfl fun magic => ite_alike (fun _ => ite_alike (fun _ => ?_) ?_) ?_) ?_
  · exact withBytes_alike rfl fun _ => embeddedToc_hosted_alike fun _ => .done (.of_noPush rfl rfl)
  all_goals exact fun _ => .done (.of_noPush rfl rfl)

/-- LAME_WINDOW's window is at most 138 bytes, so that its record fits (43_mp3.md R275). -/
theorem lameWindowBody_hosted_alike (room : RoomForRecord s) (room' : RoomForRecord (withHost h s)) :
    Alike (PushedAlike h s) (lameWindowBody s) (lameWindowBody (withHost h s)) := by
  refine ite_alike (fun _ => .done (.of_noPush rfl rfl)) fun _ => ?_
  refine withBytes_alike_of_read rfl fun window read => ?_
  have atMost : window.length ≤ 138 := by
    rw [(memRead_ok.1 read).1, lameCount]
    omega
  have shape := lameRecord_shape (arg0Value s + 39) window atMost
  exact push_alike (iff_of_true (room'.fits shape) (room.fits shape)) (.done ⟨_, rfl, rfl⟩)

/-- No command's engine step but FIFO_CLEAR's looks at or touches the host's part of the state, save to push. -/
theorem stepBody_hosted_alike (room : RoomForRecord s) (room' : RoomForRecord (withHost h s)) {i : Instr}
    (notClear : i ≠ .fifoClear) : Alike (PushedAlike h s) (stepBody i s) (stepBody i (withHost h s)) := by
  cases i with
  | fifoClear => exact absurd rfl notClear
  | nop | extract | tocDecode => exact .done (.of_noPush rfl rfl)
  | extractBuf | adtsSync | mp3Sync | oggSync | opustagsTest | xingDetect => exact spanAnswer_hosted_alike
  | adtsDecode =>
    refine ite_alike (fun _ => withBytes_alike rfl fun _ => ?_) fun _ => .done (.of_noPush rfl rfl)
    exact pushOne_hosted_alike room room' (adtsRecord_shape _ _ _)
  | mp3Decode =>
    refine ite_alike (fun _ => .done (.of_noPush rfl rfl)) fun _ => withBytes_alike rfl fun _ => ?_
    exact pushOne_hosted_alike room room' (mpegRecord_shape _ _ _)
  | lameWindow => exact lameWindowBody_hosted_alike room room'
  | oggDecode =>
    exact withPage_hosted_alike
      (fun p lacing => pushOne_hosted_alike room room' (oggRecord_shape _ _ p lacing _)) (.done (.of_noPush rfl rfl))
  | adtsScan => exact adtsScanBody_hosted_alike room room'
  | mp3Scan => exact mp3ScanBody_hosted_alike room room'
  | id3Find => exact id3FindBody_hosted_alike
  | oggScan => exact oggScanBody_hosted_alike room room'
  | opusheadFind => exact opusheadFindBody_hosted_alike

/-- A step committed in the first state is committed alike in the second; held steps leave each state as it is. -/
theorem commit_hosted_alike {r r' : StepResult} {t : State} (alike : Alike (PushedAlike h s) r r')
    (step : commit s r = .next t) : ∃ u, commit (withHost h s) r' = .next u ∧ PushedAlike h s t u := by
  cases alike with
  | done related => cases step; exact ⟨_, rfl, related⟩
  | held => cases step; exact ⟨_, rfl, .of_noPush rfl rfl⟩
  | fault f => cases step

end Sys2Proof.Machine

namespace Sys2Proof.Claims

open Sys2Proof.Machine

/-- States that are alike to the command differ in the buffer's bytes from `L` on and in the host's part only. -/
theorem SameToCommand.withHost_eq {s s' : State} (same : SameToCommand s s') :
    withHost s' s = { s' with ibuf := s.ibuf } := by
  cases s
  cases s'
  simp_all [SameToCommand, withHost]

/-- With the same part of the command's, whatever the host's part and the buffer from `L` on, states are alike. -/
theorem SameToCommand.of_withHost {t t' h : State} {m : Memory} {words : List Word}
    (eq : { t' with ibuf := m } = appendWords words (withHost h t))
    (below : ∀ a < len t, byteAt t.ibuf a = byteAt t'.ibuf a) : SameToCommand t t' := by
  cases t
  cases t'
  simp_all [SameToCommand, withHost, appendWords]

theorem withIbuf_next {m : Memory} {o : Host.Outcome State Fault Refusal} {u : State} (h : withIbuf m o = .next u) :
    ∃ t, o = .next t ∧ u = { t with ibuf := m } := by
  cases o with
  | next t => cases h; exact ⟨t, rfl, rfl⟩
  | fault f => cases h
  | refused r => cases h

theorem SameToCommand.finish {t t' : State} (same : SameToCommand t t') (c : Code) :
    SameToCommand (finish c t) (finish c t') := by
  cases t
  cases t'
  simp_all [SameToCommand, len]

/-- The FIFO is no part of what the command sees. -/
theorem SameToCommand.clearedFifo {t t' : State} (same : SameToCommand t t') :
    SameToCommand { t with fifo := [] } { t' with fifo := [] } := same

/-- Settles O54. The second state is the first with another host's part, which is out of every step's sight, and another
buffer from `L` on, which is so by O53. -/
theorem stepDependsOnlyOnCommandState : Obligations.StepDependsOnlyOnCommandState := by
  intro s s' t i same room room' h
  have ⟨params, bufLen, _, _, below, _⟩ := same
  have below' : ∀ a < len s', byteAt s.ibuf a = byteAt s'.ibuf a := by rwa [len, bufLen] at below
  by_cases clear : i = .fifoClear
  · subst clear
    cases h
    exact ⟨_, rfl, same.clearedFifo.finish .ok, .inl ⟨rfl, rfl, rfl⟩⟩
  have fits : RoomForRecord s := by unfold RoomForRecord; omega
  have fits' : RoomForRecord (withHost s' s) := by
    rw [same.withHost_eq]
    unfold RoomForRecord
    dsimp only
    omega
  rw [exec_eq_commit] at h
  obtain ⟨u, hosted, words, pushed, rfl⟩ := commit_hosted_alike (stepBody_hosted_alike fits fits' clear) h
  rw [← exec_eq_commit, same.withHost_eq, bytesBeyondTheBufferAreNeverRead s' s.ibuf i below'] at hosted
  obtain ⟨t', step', eq⟩ := withIbuf_next hosted
  rw [← exec_eq_commit] at h
  have kept : HostSideKept s t := exec_next_induction h StepEffect.hostSideKept (.refl s)
  have kept' : HostSideKept s' t' := exec_next_induction step' StepEffect.hostSideKept (.refl s')
  refine ⟨t', step', .of_withHost eq.symm ?_, .inr ⟨words, pushed, congrArg State.fifo eq.symm⟩⟩
  rwa [len, kept.bufLen, kept.ibuf, kept'.ibuf]

end Sys2Proof.Claims
end

section
/-! The bytes a step has read, as the spec's own numbers (00_scope.md R9 to R11): what each pattern and each single-byte
field says of `IBUF[a]`. -/

namespace Sys2Proof.Claims

open Sys2Proof.Machine

variable {s : State} {a n : Nat} {bs : List Byte}

theorem ibuf_of_byteAt {b : Byte} (written : byteAt s.ibuf a = some b) : ibuf s a = b.toNat := by
  simp [ibuf, written]

theorem ibuf_lt (s : State) (a : Nat) : ibuf s a < 256 := by
  unfold ibuf
  split
  · exact BitVec.isLt _
  · decide

/-- The bytes read are the numbers that stand there. -/
theorem map_toNat_of_memRead (read : memRead s.ibuf a n = .ok bs) :
    bs.map BitVec.toNat = (List.range n).map fun i => ibuf s (a + i) := by
  obtain ⟨length, bytes⟩ := memRead_ok.1 read
  apply List.ext_getElem
  · simp [length]
  · intro i inside _
    rw [List.length_map] at inside
    simp [ibuf_of_byteAt (bytes i inside)]

/-- A magic: the bytes read are the given ones exactly when the numbers are. -/
theorem matches_iff (read : memRead s.ibuf a n = .ok bs) (magic : List Byte) (length : magic.length = n) :
    bs = magic ↔ Matches s a (magic.map BitVec.toNat) := by
  have injective : Function.Injective (BitVec.toNat : Byte → Nat) := fun _ _ => BitVec.eq_of_toNat_eq
  rw [← (List.map_injective_iff.2 injective).eq_iff, map_toNat_of_memRead read, Matches, List.length_map, length]

theorem oggMatch_iff (read : memRead s.ibuf a 5 = .ok bs) : oggMatch bs = true ↔ OggMagic s a :=
  beq_iff_eq.trans (matches_iff read oggMagic rfl)

theorem opusHead_iff (read : memRead s.ibuf a 8 = .ok bs) : bs = opusHeadMagic ↔ OpusHead s a :=
  matches_iff read opusHeadMagic rfl

/-- Two bytes under a two-byte mask: each byte under its own. -/
theorem be_two_and_iff (b c mask₀ mask₁ value₀ value₁ : Byte) :
    be [b, c] &&& be [mask₀, mask₁] = be [value₀, value₁] ↔ b &&& mask₀ = value₀ ∧ c &&& mask₁ = value₁ := by
  have two (x y : Byte) : be [x, y] = (x ++ y).toNat := by
    rw [toNat_append_eq_add]
    simp [be]
  rw [two, two, two, ← BitVec.toNat_and, BitVec.and_append, toNat_append_eq_add, toNat_append_eq_add,
    ← BitVec.toNat_inj, ← BitVec.toNat_inj]
  have low := (c &&& mask₁).isLt
  have low' := value₁.isLt
  omega

theorem two_of_memRead (read : memRead s.ibuf a 2 = .ok bs) :
    ∃ b c, bs = [b, c] ∧ b.toNat = ibuf s a ∧ c.toNat = ibuf s (a + 1) := by
  obtain ⟨b, c, rfl⟩ := List.length_eq_two.1 (memRead_ok.1 read).1
  obtain ⟨first, rest⟩ := List.cons.inj (map_toNat_of_memRead read)
  exact ⟨b, c, rfl, first, (List.cons.inj rest).1⟩

theorem byte_adts_iff : ∀ c : Byte,
    c &&& 0xF6 = 0xF0 ↔ c.toNat = 0xF0 ∨ c.toNat = 0xF1 ∨ c.toNat = 0xF8 ∨ c.toNat = 0xF9 := by decide

theorem byte_mpeg_iff : ∀ c : Byte, c &&& 0xE0 = 0xE0 ↔ 0xE0 ≤ c.toNat := by decide

theorem byte_ones_iff : ∀ b : Byte, b &&& 0xFF = 0xFF ↔ b.toNat = 0xFF := by decide

theorem adtsSyncMatch_iff (read : memRead s.ibuf a 2 = .ok bs) : adtsSyncMatch bs = true ↔ AdtsSync s a := by
  obtain ⟨b, c, rfl, first, second⟩ := two_of_memRead read
  rw [AdtsSync, ← first, ← second, ← byte_ones_iff, ← byte_adts_iff, ← be_two_and_iff]
  exact beq_iff_eq

theorem mpegSyncMatch_iff (read : memRead s.ibuf a 2 = .ok bs) : mpegSyncMatch bs = true ↔ MpegSync s a := by
  obtain ⟨b, c, rfl, first, second⟩ := two_of_memRead read
  rw [MpegSync, ← first, ← second, ← byte_ones_iff, ← byte_mpeg_iff, ← be_two_and_iff]
  exact beq_iff_eq

/-- The tag pattern of the five bytes in front and the four size bytes, the flags byte between them left out
(43_mp3.md R270). -/
theorem id3Match_iff {front size : List Byte} (readFront : memRead s.ibuf a 5 = .ok front)
    (readSize : memRead s.ibuf (a + 6) 4 = .ok size) : id3Match front size = true ↔ Id3Header s a := by
  have frontBytes :
      front.map BitVec.toNat = [ibuf s a, ibuf s (a + 1), ibuf s (a + 2), ibuf s (a + 3), ibuf s (a + 4)] :=
    map_toNat_of_memRead readFront
  have sizeBytes : size.map BitVec.toNat = [ibuf s (a + 6), ibuf s (a + 7), ibuf s (a + 8), ibuf s (a + 9)] :=
    map_toNat_of_memRead readSize
  simp only [List.map_eq_cons_iff, List.map_eq_nil_iff] at frontBytes sizeBytes
  obtain ⟨b₀, _, rfl, h₀, b₁, _, rfl, h₁, b₂, _, rfl, h₂, b₃, _, rfl, h₃, b₄, _, rfl, h₄, rfl⟩ := frontBytes
  obtain ⟨c₀, _, rfl, k₀, c₁, _, rfl, k₁, c₂, _, rfl, k₂, c₃, _, rfl, k₃, rfl⟩ := sizeBytes
  simp [id3Match, slice, id3Magic, Id3Header, ← BitVec.toNat_inj, *, and_assoc]

/-- A single-byte field of the bytes read (41_bitfield.md R203). -/
theorem field_one_toNat (read : memRead s.ibuf a n = .ok bs) {i : Nat} (inside : i < n) (w shift : Nat) :
    (field bs i 1 w shift).toNat = ibuf s (a + i) / 2 ^ shift % 2 ^ w := by
  obtain ⟨length, bytes⟩ := memRead_ok.1 read
  have sliced : slice bs i 1 = [bs[i]'(by omega)] := by
    rw [slice, List.drop_eq_getElem_cons (by omega : i < bs.length)]
    rfl
  rw [field, sliced, extract, BitVec.toNat_ofNat, Nat.mod_mod, Nat.shiftRight_eq_div_pow,
    ibuf_of_byteAt (bytes i (by omega))]
  simp [be]

/-! The MPEG-audio header's numbers (43_mp3.md R261 to R265). -/

/-- The bitrate that version bits, layer bits and a bitrate index mean (R263). -/
def bitrateOf (vb lb bi : Nat) : Int :=
  if vb = 1 ∨ lb = 0 then -1
  else if bi = 0 then 0
  else if bi = 15 then -1
  else 1000 * ((bitrateRow vb lb).getD (bi - 1) 0 : Nat)

/-- The sample rate that version bits and a sample-rate index mean (R264). -/
def sampleRateOf (vb si : Nat) : Int :=
  if vb = 1 ∨ si = 3 then -1
  else if vb = 3 then [44100, 48000, 32000].getD si 0
  else if vb = 2 then [22050, 24000, 16000].getD si 0
  else [11025, 12000, 8000].getD si 0

/-- The model's bitrate tables are the spec's, in every row and column (10_state.md R41). -/
theorem mpegBitrate_table : ∀ (vb lb : BitVec 2) (bi : BitVec 4),
    mpegBitrate ⟨mpegVersion vb, mpegLayer lb, 0, bi, 0, 0, 0⟩ = bitrateOf vb.toNat lb.toNat bi.toNat := by decide

/-- The model's sample-rate tables are the spec's (10_state.md R42). -/
theorem mpegRate_table : ∀ vb si : BitVec 2, mpegSampleRate (mpegVersion vb) si = sampleRateOf vb.toNat si.toNat := by
  decide

section
variable (read : memRead s.ibuf a n = .ok bs) (three : 3 ≤ n)
include read three

theorem mpegBitrate_eq : mpegBitrate (mpegDecode bs) = bitrate s a := by
  have table := mpegBitrate_table (field bs 1 1 2 3) (field bs 1 1 2 1) (field bs 2 1 4 4)
  rw [field_one_toNat read (by omega), field_one_toNat read (by omega), field_one_toNat read (by omega)] at table
  have index : ibuf s (a + 2) / 2 ^ 4 % 2 ^ 4 = mpegBi s a := by
    have := ibuf_lt s (a + 2)
    unfold mpegBi
    omega
  rw [index] at table
  exact table

theorem mpegRate_eq : mpegRate (mpegDecode bs) = sampleRate s a := by
  have table := mpegRate_table (field bs 1 1 2 3) (field bs 2 1 2 2)
  rw [field_one_toNat read (by omega), field_one_toNat read (by omega)] at table
  exact table

/-- The decoded header's frame size is the spec's quotient. -/
theorem mpegFrameSize_eq : mpegFrameSize (mpegDecode bs) = frameSize s a := by
  rw [mpegFrameSize, frameSize, mpegBitrate_eq read three, mpegRate_eq read three]
  split
  · rename_i positive
    obtain ⟨bitratePos, ratePos⟩ := positive
    lift bitrate s a to Nat using bitratePos.le with b
    lift sampleRate s a to Nat using ratePos.le with r
    norm_cast
  · rfl

end

end Sys2Proof.Claims
end

section
/-! Which bytes a step reads, in which order, and where it stops (20_memory.md R71, R72; 93_implementation_defined.md
U1): one rule per shared operation of a step, and from them the reads of every command. -/

namespace Sys2Proof.Claims

open Sys2Proof.Machine

/-- The step reads exactly these bytes in this order and stops with a fault at the first never written; where all are
written it takes effect, or is held because the FIFO has no room for the largest record. -/
inductive Reads (s : State) : List Nat → StepResult → Prop
  | done (t : State) : Reads s [] (.done t)
  | held (full : ¬ RoomForRecord s) : Reads s [] .held
  | stopped {a : Nat} {rest : List Nat} (unwritten : byteAt s.ibuf a = none) :
      Reads s (a :: rest) (.fault (.unwrittenByte a))
  | cons {a : Nat} {rest : List Nat} {r : StepResult} (written : byteAt s.ibuf a ≠ none) (tail : Reads s rest r) :
      Reads s (a :: rest) r

variable {s : State} {l : List Nat} {r : StepResult} {a n : Nat}

/-- A step faults exactly on the first unwritten byte it reads. -/
theorem Reads.fault_iff (reads : Reads s l r) :
    r = .fault (.unwrittenByte a) ↔ l.find? (fun x => (byteAt s.ibuf x).isNone) = some a := by
  induction reads with
  | done t => simp
  | held full => simp
  | stopped unwritten => simp [unwritten]
  | cons written tail ih => rw [ih, List.find?_cons_of_neg (by simpa using written)]

/-- A step that reads only written bytes, with room for the largest record, takes effect. -/
theorem Reads.done_of_written (reads : Reads s l r) (written : ∀ x ∈ l, byteAt s.ibuf x ≠ none)
    (room : RoomForRecord s) : ∃ t, r = .done t := by
  induction reads with
  | done t => exact ⟨t, rfl⟩
  | held full => exact absurd room full
  | stopped unwritten => exact absurd unwritten (written _ List.mem_cons_self)
  | cons _ tail ih => exact ih fun x inTail => written x (List.mem_cons_of_mem _ inTail)

theorem Reads.append {front : List Nat} (written : ∀ x ∈ front, byteAt s.ibuf x ≠ none) (reads : Reads s l r) :
    Reads s (front ++ l) r := by
  induction front with
  | nil => exact reads
  | cons x front ih =>
    exact .cons (written x List.mem_cons_self) (ih fun y inFront => written y (List.mem_cons_of_mem _ inFront))

@[simp] theorem mem_span {x : Nat} : x ∈ span a n ↔ a ≤ x ∧ x < a + n := by
  simp only [span, List.mem_map, List.mem_range]
  constructor
  · rintro ⟨i, inside, rfl⟩
    omega
  · rintro ⟨least, below⟩
    exact ⟨x - a, by omega, by omega⟩

theorem span_add (a m n : Nat) : span a (m + n) = span a m ++ span (a + m) n := by
  simp [span, List.range_add, Function.comp_def, Nat.add_assoc]

theorem span_succ (a n : Nat) : span a (n + 1) = a :: span (a + 1) n := by
  rw [Nat.add_comm, span_add]
  rfl

theorem Reads.withByte {k : Byte → StepResult} (rest : ∀ b, byteAt s.ibuf a = some b → Reads s l (k b)) :
    Reads s (a :: l) (withByte s a k) := by
  cases byte : byteAt s.ibuf a with
  | none =>
    rw [withByte_fault.2 (.inl ⟨byte, rfl⟩)]
    exact .stopped byte
  | some b =>
    rw [withByte_eq byte]
    exact .cons (by simp [byte]) (rest b byte)

theorem Reads.withBytes {k : List Byte → StepResult} (rest : ∀ bs, memRead s.ibuf a n = .ok bs → Reads s l (k bs)) :
    Reads s (span a n ++ l) (withBytes s a n k) := by
  cases read : memRead s.ibuf a n with
  | error f =>
    obtain ⟨i, inside, unwritten, rfl, written⟩ := memRead_error read
    obtain ⟨m, rfl⟩ := Nat.exists_eq_add_of_lt inside
    rw [withBytes_fault.2 (.inl read), Nat.add_assoc, span_add, span_succ, List.append_assoc]
    refine .append (fun x inFront => ?_) (.stopped unwritten)
    obtain ⟨least, below⟩ := mem_span.1 inFront
    have := written (x - a) (by omega)
    rwa [Nat.add_sub_cancel' least] at this
  | ok bs =>
    rw [withBytes_eq read]
    refine .append (fun x inSpan => ?_) (rest bs read)
    obtain ⟨length, bytes⟩ := memRead_ok.1 read
    obtain ⟨least, below⟩ := mem_span.1 inSpan
    have := bytes (x - a) (by omega)
    rw [Nat.add_sub_cancel' least] at this
    simp [this]

/-- The last bytes a step reads. -/
theorem Reads.withLastBytes {k : List Byte → StepResult}
    (rest : ∀ bs, memRead s.ibuf a n = .ok bs → Reads s [] (k bs)) :
    Reads s (span a n) (Machine.withBytes s a n k) := by
  simpa using Reads.withBytes rest

/-- A test against `L`, or of a pattern, on which the reads depend as the step does. -/
theorem Reads.ite {p q : Prop} [Decidable p] [Decidable q] {l' : List Nat} {r' : StepResult} (same : q ↔ p)
    (yes : p → Reads s l r) (no : ¬ p → Reads s l' r') : Reads s (if p then l else l') (if q then r else r') := by
  by_cases h : p
  · rw [if_pos h, if_pos (same.2 h)]
    exact yes h
  · rw [if_neg h, if_neg (mt same.1 h)]
    exact no h

/-- A one-shot's test against `L`: where too few bytes are left it ends and reads none. -/
theorem Reads.guard {needed : Nat} {short : State} (enough : needed ≤ len s → Reads s l r) :
    Reads s (if needed ≤ len s then l else []) (if bufferLength s < needed then .done short else r) := by
  by_cases inside : needed ≤ len s
  · rw [if_pos inside, if_neg (show ¬ bufferLength s < needed from Nat.not_lt.2 inside)]
    exact enough inside
  · rw [if_neg inside, if_pos (show bufferLength s < needed from Nat.not_le.1 inside)]
    exact .done _

/-- A one-shot that tests its span against `L` and answers from the span's bytes. -/
theorem Reads.spanAnswer {needed : Nat} {short : State} {answer : List Byte → State} :
    Reads s (if needed ≤ len s then span a n else [])
      (if bufferLength s < needed then .done short else Machine.withBytes s a n fun bs => .done (answer bs)) :=
  .guard fun _ => .withLastBytes fun _ _ => .done _

/-- A record is pushed or held; what follows a push takes effect. -/
theorem Reads.push {words : List Word} {inc : Bool} (shape : RecordShape words inc) {s' : State} {k : State → State}
    (fifo : s'.fifo = s.fifo) (params : s'.params = s.params) :
    Reads s [] (Machine.push s' words fun t => .done (k t)) := by
  unfold Machine.push
  split
  · exact .done _
  · rename_i noRoom
    rw [fifo, params] at noRoom
    exact .held fun room => noRoom (room.fits shape)

/-- A page reads its segment count, then its fields and its lacing values where they lie below `L` (44_ogg.md R311,
R312). -/
theorem Reads.withPage {page : OggPage → StepResult} {cut : State}
    (whole : ∀ p, p.segmentSizeTable.length = p.segments.toNat → Reads s [] (page p)) :
    Reads s (pageBytes s a) (withPage s a page (.done cut)) := by
  refine .ite Iff.rfl (fun fixedInside => .withByte fun seg count => ?_) fun _ => .done _
  have segs : segments s a = seg.toNat := ibuf_of_byteAt count
  rw [segs]
  refine .ite Iff.rfl (fun tableInside => ?_) fun _ => .done _
  rw [span_add, Nat.add_assoc a 5 22]
  refine .withBytes fun fixed fields => .withLastBytes fun table lacing => whole _ ?_
  rw [oggDecode_segments table count fields]
  exact (memRead_ok.1 lacing).1

theorem arg1N_eq (s : State) : arg1N s = s.arg1.toNat / 2 ^ 16 % 4 + 1 := by
  rw [arg1N, BitVec.extractLsb'_toNat, Nat.shiftRight_eq_div_pow]

theorem extractBufBody_reads : Reads s (bytesRead .extractBuf s) (extractBufBody s) := by
  rw [bytesRead, ← arg1N_eq]
  exact .spanAnswer

theorem adtsDecodeBody_reads : Reads s (bytesRead .adtsDecode s) (adtsDecodeBody s) :=
  .ite decide_eq_true_iff (fun _ => .withLastBytes fun _ _ => .push (adtsRecord_shape _ _ _) rfl rfl) fun _ => .done _

theorem mp3DecodeBody_reads : Reads s (bytesRead .mp3Decode s) (mp3DecodeBody s) :=
  .guard fun _ => .withLastBytes fun _ _ => .push (mpegRecord_shape _ _ _) rfl rfl

/-- LAME_WINDOW reads its whole window, which is empty where nothing of it lies below `L` (43_mp3.md R275). -/
theorem lameWindowBody_reads : Reads s (bytesRead .lameWindow s) (lameWindowBody s) := by
  have window : bytesRead .lameWindow s = span (arg0Value s + 39) (lameCount s) := rfl
  rw [window, lameWindowBody]
  split
  · rename_i empty
    rw [empty]
    exact .done _
  · refine .withLastBytes fun bs read => .push (lameRecord_shape _ _ ?_) rfl rfl
    rw [(memRead_ok.1 read).1, lameCount]
    omega

theorem oggDecodeBody_reads : Reads s (bytesRead .oggDecode s) (oggDecodeBody s) :=
  .withPage fun p lacing => .push (oggRecord_shape _ _ p lacing _) rfl rfl

theorem adtsScanBody_reads : Reads s (bytesRead .adtsScan s) (adtsScanBody s) := by
  refine .ite Iff.rfl (fun _ => .withBytes fun sync read => ?_) fun _ => .done _
  by_cases isSync : AdtsSync s s.off.toNat
  · rw [if_pos ((adtsSyncMatch_iff read).2 isSync)]
    refine .ite (decide_eq_true_iff.trans (and_iff_right isSync).symm) (fun _ => ?_) fun _ => .done _
    exact .withLastBytes fun _ _ => .push (adtsRecord_shape _ _ _) rfl rfl
  · rw [if_neg (mt (adtsSyncMatch_iff read).1 isSync), if_neg fun h => isSync h.1]
    exact .done _

theorem mp3ScanBody_reads : Reads s (bytesRead .mp3Scan s) (mp3ScanBody s) := by
  refine .ite Iff.rfl (fun _ => .withBytes fun sync read => ?_) fun _ => .done _
  refine .ite (mpegSyncMatch_iff read) (fun _ => .withLastBytes fun bs _ => ?_) fun _ => .done _
  split
  · exact .push (mpegRecord_shape _ _ _) rfl rfl
  · exact .done _

theorem id3FindBody_reads : Reads s (bytesRead .id3Find s) (id3FindBody s) := by
  refine .ite Iff.rfl (fun _ => ?_) fun _ => .done _
  rw [List.append_assoc]
  refine .withBytes fun front readFront => .withBytes fun size readSize => ?_
  exact .ite (id3Match_iff readFront readSize) (fun _ => .withByte fun _ _ => .done _) fun _ => .done _

theorem oggScanBody_reads : Reads s (bytesRead .oggScan s) (oggScanBody s) := by
  refine .ite Iff.rfl (fun _ => .withBytes fun magic read => ?_) fun _ => .done _
  refine .ite (oggMatch_iff read) (fun _ => .withPage fun p lacing => ?_) fun _ => .done _
  exact .push (oggRecord_shape _ _ p lacing _) rfl rfl

/-- The embedded TOC byte is read where it lies below `L` (45_opus.md R343). -/
theorem Reads.embeddedToc {results : Results} {k : Results → State} :
    Reads s (((s.params.opusTocOffset.filter fun d => decide (a + d < len s)).map fun d => a + d).toList)
      (embeddedToc s a results fun r => .done (k r)) := by
  unfold Machine.embeddedToc
  cases s.params.opusTocOffset with
  | none => exact .done _
  | some d =>
    by_cases inside : a + d < len s
    · have kept : (some d).filter (fun d => decide (a + d < len s)) = some d := by simp [inside]
      rw [kept]
      dsimp only
      rw [if_neg (show ¬ bufferLength s ≤ a + d from Nat.not_le.2 inside)]
      exact .withByte fun _ _ => .done _
    · have dropped : (some d).filter (fun d => decide (a + d < len s)) = none := by simpa using inside
      rw [dropped]
      dsimp only
      rw [if_pos (show bufferLength s ≤ a + d from Nat.not_lt.1 inside)]
      exact .done _

theorem opusheadFindBody_reads : Reads s (bytesRead .opusheadFind s) (opusheadFindBody s) := by
  refine .ite Iff.rfl (fun _ => .withBytes fun magic read => ?_) fun _ => .done _
  by_cases isHead : OpusHead s s.off.toNat
  · rw [if_pos ((opusHead_iff read).2 isHead)]
    refine .ite (and_iff_right isHead).symm (fun _ => .withBytes fun _ _ => .embeddedToc) fun _ => .done _
  · rw [if_neg (mt (opusHead_iff read).1 isHead), if_neg fun h => isHead h.1]
    exact .done _

/-- Every command's step reads the bytes that `bytesRead` lists. -/
theorem stepBody_reads (i : Instr) (s : State) : Reads s (bytesRead i s) (stepBody i s) := by
  cases i with
  | nop | fifoClear | extract | tocDecode => exact .done _
  | extractBuf => exact extractBufBody_reads
  | adtsSync | mp3Sync | oggSync | opustagsTest | xingDetect => exact .spanAnswer
  | adtsDecode => exact adtsDecodeBody_reads
  | adtsScan => exact adtsScanBody_reads
  | mp3Decode => exact mp3DecodeBody_reads
  | mp3Scan => exact mp3ScanBody_reads
  | id3Find => exact id3FindBody_reads
  | lameWindow => exact lameWindowBody_reads
  | oggDecode => exact oggDecodeBody_reads
  | oggScan => exact oggScanBody_reads
  | opusheadFind => exact opusheadFindBody_reads

/-- Every byte a page is decoded from lies below `L`. -/
theorem lt_of_mem_pageBytes {x : Nat} (h : x ∈ pageBytes s a) : x < len s := by
  simp only [pageBytes, List.mem_ite_nil_right, List.mem_cons, mem_span] at h
  omega

/-- Every byte a command reads lies below `L` (20_memory.md R72). -/
theorem lt_of_mem_bytesRead {i : Instr} {x : Nat} (h : x ∈ bytesRead i s) : x < len s := by
  cases i with
  | nop | fifoClear | extract | tocDecode => cases h
  | oggDecode => exact lt_of_mem_pageBytes h
  | oggScan =>
    simp only [bytesRead, List.mem_ite_nil_right, List.mem_append, mem_span] at h
    obtain ⟨inside, magic | ⟨_, page⟩⟩ := h
    · omega
    · exact lt_of_mem_pageBytes page
  | opusheadFind =>
    simp only [bytesRead, List.mem_ite_nil_right, List.mem_append, mem_span, Option.mem_toList, Option.map_eq_some_iff,
      Option.filter_eq_some_iff, decide_eq_true_eq] at h
    obtain ⟨inside, magic | ⟨⟨_, headInside⟩, head | ⟨d, ⟨_, tocInside⟩, rfl⟩⟩⟩ := h <;> omega
  | _ =>
    simp only [bytesRead, List.mem_ite_nil_right, List.mem_append, mem_span, List.mem_singleton] at h
    omega

end Sys2Proof.Claims
end

section
/-! How a step that takes effect ends (40_engine.md R155, R156, R163). -/

namespace Sys2Proof.Machine

/-- A step that takes effect finishes the command, or goes on with the step counted. -/
theorem StepEffect.finished_or_counted {i : Instr} {s t : State} (h : StepEffect i s t) :
    (t.phase = .idle ∧ t.done = true) ∨ (t.phase = s.phase ∧ t.steps = s.steps + 1) := by
  cases h with
  | answered | cleared | recorded | ended | found => exact .inl ⟨rfl, rfl⟩
  | _ => exact .inr (by simp)

/-- A one-shot's step finishes it. -/
theorem StepEffect.finished_of_oneShot {i : Instr} {s t : State} (h : StepEffect i s t) (oneShot : isWalk i = false) :
    t.phase = .idle ∧ t.done = true ∧ t.steps = s.steps := by
  have uncounted := (h.walkStateKept oneShot).steps
  rcases h.finished_or_counted with ⟨idle, done⟩ | ⟨_, counted⟩
  · exact ⟨idle, done, uncounted⟩
  · bv_omega

end Sys2Proof.Machine

namespace Sys2Proof.Claims

open Sys2Proof.Machine

/-- Settles O21: what the steps read, by the rules of `Reads`, and how those end that take effect. -/
theorem everyCommandStepCompletes : Obligations.EveryCommandStepCompletes := by
  refine ⟨fun s i ready room => ?_, fun s i x => lt_of_mem_bytesRead, fun s i x => ?_, fun s i why => ?_⟩
  · obtain ⟨_, written⟩ := ready
    have room : RoomForRecord s := by unfold RoomForRecord; omega
    obtain ⟨t, done⟩ := (stepBody_reads i s).done_of_written (fun x inReads => by
      simpa using written x (lt_of_mem_bytesRead inReads)) room
    have effect := stepBody_effect done
    exact ⟨t, by rw [exec_eq_commit, done]; rfl, effect.finished_of_oneShot, fun _ => effect.finished_or_counted⟩
  · rw [exec_eq_commit, commit_fault]
    exact (stepBody_reads i s).fault_iff
  · rw [exec_eq_commit]
    exact commit_not_refused s _ why

end Sys2Proof.Claims
end

section
/-! Steps of commands on written bytes: the reads succeed, and what follows knows what stands there (20_memory.md
R71). -/

namespace Sys2Proof.Machine

theorem exec_of_done {i : Instr} {s t : State} (body : stepBody i s = .done t) : exec i s = .next t := by
  rw [exec_eq_commit, body, commit]

/-- A held step leaves the whole state as it is (40_engine.md R160). -/
theorem exec_of_held {i : Instr} {s : State} (body : stepBody i s = .held) : exec i s = .next s := by
  rw [exec_eq_commit, body, commit]

/-- A run's first step. -/
theorem run_succ {s t : State} {k : Nat} (first : step s = .next t) : core.run (k + 1) s = core.run k t := by
  have runs : core.step s = .next t := first
  simp only [Host.Core.run, runs]

theorem word_toNat_add (w : Word) (n : Nat) : word (w.toNat + n) = w + BitVec.ofNat 32 n := by
  rw [word, BitVec.ofNat_add, BitVec.ofNat_toNat, BitVec.setWidth_eq]

/-- Stepping over an offset counts the step and moves OFF one on (40_engine.md R157, R159). -/
theorem noCandidate_eq (s : State) : noCandidate s = { s with steps := s.steps + 1, off := s.off + 1 } := by
  rw [noCandidate, setOff, word_toNat_add]
  rfl

theorem lameRecord_length (a : Nat) (window : List Byte) :
    (lameRecord a window).length = 2 + (window.length + 3) / 4 := by
  simp only [lameRecord, List.length_append, List.length_cons, List.length_nil, packLe_length]

theorem oggRecord_length {p : OggPage} (lacing : p.segmentSizeTable.length = p.segments.toNat) (length off : Nat)
    (inc : Bool) : (oggRecord length off p inc).length = 9 + (p.segments.toNat + 3) / 4 := by
  simp only [oggRecord, List.length_append, List.length_cons, List.length_nil, packLe_length, lacing]

end Sys2Proof.Machine

namespace Sys2Proof.Claims

open Sys2Proof.Machine

variable {s : State} {a n : Nat}

/-- Part of a written span. -/
theorem Written.part (written : Written s a n) {b m : Nat} (least : a ≤ b) (most : b + m ≤ a + n) : Written s b m := by
  intro i inside
  have := written (b - a + i) (by omega)
  rwa [← Nat.add_assoc, Nat.add_sub_cancel' least] at this

theorem exists_byteAt (written : Written s a n) {b : Nat} (least : a ≤ b) (most : b < a + n) :
    ∃ v, byteAt s.ibuf b = some v :=
  Option.ne_none_iff_exists'.1 (written.part least most 0 Nat.one_pos)

/-- A written span is read, and what follows knows its bytes. -/
theorem withBytes_of_written (written : Written s a n) {k : List Byte → StepResult} {r : StepResult}
    (rest : ∀ bs, memRead s.ibuf a n = .ok bs → k bs = r) : withBytes s a n k = r := by
  obtain ⟨bs, read⟩ := memRead_of_written written
  rw [withBytes_eq read, rest bs read]

/-- The page that stands whole and written below `L`. -/
theorem withPage_of_written (written : Written s a (27 + segments s a)) (inside : a + 27 + segments s a ≤ len s) :
    ∃ p, p.segments.toNat = segments s a ∧ p.segmentSizeTable.length = p.segments.toNat ∧
      ∀ page cut, withPage s a page cut = page p := by
  obtain ⟨seg, count⟩ := exists_byteAt written (Nat.le_add_right a 26) (by omega)
  have segs : segments s a = seg.toNat := ibuf_of_byteAt count
  rw [segs] at written inside ⊢
  obtain ⟨fixed, fields⟩ := memRead_of_written (written.part (m := 22) (Nat.le_add_right a 5) (by omega))
  obtain ⟨table, lacing⟩ := memRead_of_written (written.part (m := seg.toNat) (Nat.le_add_right a 27) (by omega))
  have counted := oggDecode_segments table count fields
  exact ⟨oggDecode fixed table, by rw [counted], by rw [counted]; exact (memRead_ok.1 lacing).1,
    withPage_of_whole count inside fields lacing⟩

/-! A full FIFO (40_engine.md R160). -/

/-- A record for which the FIFO has no room is not pushed. -/
theorem push_of_noRoom {s' : State} {words : List Word} (full : ¬ Room s words.length) {k : State → StepResult}
    (fifo : s'.fifo = s.fifo) (params : s'.params = s.params) : push s' words k = .held := by
  rw [push, fifo, params, if_neg (by omega)]

theorem adtsDecodeBody_held (written : Written s s.arg0.toNat 9) (inside : s.arg0.toNat + 19 ≤ len s)
    (full : ¬ Room s 6) : adtsDecodeBody s = .held := by
  have decodable : adtsDecodable s (arg0Value s) = true := decide_eq_true inside
  rw [adtsDecodeBody, if_pos decodable]
  exact withBytes_of_written written fun _ _ => push_of_noRoom full rfl rfl

theorem adtsScanBody_held (written : Written s s.off.toNat 9) (inside : s.off.toNat + 19 ≤ len s)
    (sync : AdtsSync s s.off.toNat) (full : ¬ Room s 6) : adtsScanBody s = .held := by
  have loops : s.off.toNat + 7 < bufferLength s := Nat.lt_of_lt_of_le (by omega) inside
  have decodable : adtsDecodable s s.off.toNat = true := decide_eq_true inside
  rw [adtsScanBody, if_pos loops, adtsScanIteration]
  refine withBytes_of_written (written.part (Nat.le_refl _) (by omega)) fun bs read => ?_
  rw [if_pos ((adtsSyncMatch_iff read).2 sync), if_pos decodable]
  exact withBytes_of_written written fun _ _ => push_of_noRoom full rfl rfl

theorem mp3DecodeBody_held (written : Written s s.arg0.toNat 4) (inside : s.arg0.toNat + 4 ≤ len s)
    (full : ¬ Room s 6) : mp3DecodeBody s = .held := by
  have enough : ¬ bufferLength s < arg0Value s + 4 := Nat.not_lt.2 inside
  rw [mp3DecodeBody, if_neg enough]
  exact withBytes_of_written (written.part (Nat.le_refl _) (by omega)) fun _ _ => push_of_noRoom full rfl rfl

theorem mp3ScanBody_held (written : Written s s.off.toNat 4) (inside : s.off.toNat + 4 ≤ len s)
    (sync : MpegSync s s.off.toNat) (positive : 0 < frameSize s s.off.toNat) (full : ¬ Room s 6) :
    mp3ScanBody s = .held := by
  have loops : s.off.toNat + 4 ≤ bufferLength s := inside
  rw [mp3ScanBody, if_pos loops, mp3ScanIteration]
  refine withBytes_of_written (written.part (Nat.le_refl _) (by omega)) fun bs read => ?_
  rw [if_pos ((mpegSyncMatch_iff read).2 sync)]
  refine withBytes_of_written (written.part (Nat.le_refl _) (by omega)) fun bs read => ?_
  rw [if_pos (by rwa [mpegFrameSize_eq read (Nat.le_refl 3)])]
  exact push_of_noRoom full rfl rfl

theorem lameWindowBody_held (written : Written s (s.arg0.toNat + 39) (lameCount s)) (nonempty : 0 < lameCount s)
    (full : ¬ Room s (2 + (lameCount s + 3) / 4)) : lameWindowBody s = .held := by
  rw [lameWindowBody, if_neg (by omega)]
  refine withBytes_of_written written fun window read => push_of_noRoom ?_ rfl rfl
  rwa [lameRecord_length, (memRead_ok.1 read).1]

theorem oggDecodeBody_held (written : Written s s.arg0.toNat (27 + segments s s.arg0.toNat))
    (inside : s.arg0.toNat + 27 + segments s s.arg0.toNat ≤ len s)
    (full : ¬ Room s (9 + (segments s s.arg0.toNat + 3) / 4)) : oggDecodeBody s = .held := by
  obtain ⟨p, segs, lacing, page⟩ := withPage_of_written written inside
  rw [oggDecodeBody, arg0Value, page]
  refine push_of_noRoom ?_ rfl rfl
  rwa [oggRecord_length lacing, segs]

theorem oggScanBody_held (written : Written s s.off.toNat (27 + segments s s.off.toNat))
    (inside : s.off.toNat + 27 + segments s s.off.toNat ≤ len s) (magic : OggMagic s s.off.toNat)
    (full : ¬ Room s (9 + (segments s s.off.toNat + 3) / 4)) : oggScanBody s = .held := by
  obtain ⟨p, segs, lacing, page⟩ := withPage_of_written written inside
  have loops : s.off.toNat + 5 ≤ bufferLength s := Nat.le_trans (by omega) inside
  rw [oggScanBody, if_pos loops, oggScanIteration]
  refine withBytes_of_written (written.part (Nat.le_refl _) (by omega)) fun bs read => ?_
  rw [if_pos ((oggMatch_iff read).2 magic), page]
  refine push_of_noRoom ?_ rfl rfl
  rwa [oggRecord_length lacing, segs]

/-- Settles O24, a command at a time: its body reaches the push, and the push is held. -/
theorem fullFifoHoldsTheStep : Obligations.FullFifoHoldsTheStep := fun s =>
  ⟨fun written inside full => exec_of_held (adtsDecodeBody_held written inside full),
    fun written inside sync full => exec_of_held (adtsScanBody_held written inside sync full),
    fun written inside full => exec_of_held (mp3DecodeBody_held written inside full),
    fun written inside sync positive full => exec_of_held (mp3ScanBody_held written inside sync positive full),
    fun _ count nonempty written full => by
      subst count
      exact exec_of_held (lameWindowBody_held written nonempty full),
    fun written inside full => exec_of_held (oggDecodeBody_held written inside full),
    fun written inside magic full => exec_of_held (oggScanBody_held written inside magic full)⟩

/-- Settles O25, by induction on the number of steps: the held step of a hung engine leaves it hung. -/
theorem undrainedFifoHangs : Obligations.UndrainedFifoHangs := by
  intro s k hung
  obtain ⟨stalled, noMoves⟩ := hung
  obtain ⟨i, busy, running⟩ : ∃ i, s.phase = .busy ∧ runningCommand s = some i := by
    unfold stallBit at stalled
    split at stalled
    · exact ⟨_, ‹_›, ‹_›⟩
    · cases stalled
  have stays : step s = .next s :=
    (step_eq_exec busy running noMoves).trans (exec_of_held ((stallBit_iff_held busy running).1 stalled))
  refine ⟨?_, busy, (statusWord_stall s (stallBit s)).trans (by rw [stalled]; rfl)⟩
  induction k with
  | zero => rfl
  | succ k ih => rw [run_succ stays, ih]

/-! Where a scan or search ends, and what it steps over (40_engine.md R155 to R159). -/

/-- Settles O42: where the loop condition fails the walk's body is its ending. -/
theorem walksEndPastTheBuffer : Obligations.WalksEndPastTheBuffer := fun _ =>
  ⟨fun past => exec_of_done (if_neg (Nat.not_lt.2 past)), fun past => exec_of_done (if_neg (Nat.not_le.2 past)),
    fun past => exec_of_done (if_neg (Nat.not_le.2 past)), fun past => exec_of_done (if_neg (Nat.not_le.2 past)),
    fun past => exec_of_done (if_neg (Nat.not_le.2 past))⟩

/-- An iteration that steps over its offset. -/
theorem exec_of_skipped {i : Instr} (body : stepBody i s = .done (noCandidate s)) :
    exec i s = .next { s with steps := s.steps + 1, off := s.off + 1 } := by
  rw [exec_of_done body, noCandidate_eq]

/-- Settles O43, a walk at a time: its pattern is read and does not match. -/
theorem walksStepOverNonMatches : Obligations.WalksStepOverNonMatches := by
  refine fun s => ⟨fun loops written noSync => exec_of_skipped ?_, fun loops written noSync => exec_of_skipped ?_,
    fun loops written noMagic => exec_of_skipped ?_, fun loops written noTag => exec_of_skipped ?_,
    fun loops written noHead => exec_of_skipped ?_⟩
  · refine (if_pos loops).trans (withBytes_of_written written fun bs read => if_neg ?_)
    exact mt (adtsSyncMatch_iff read).1 noSync
  · refine (if_pos loops).trans (withBytes_of_written written fun bs read => if_neg ?_)
    exact mt (mpegSyncMatch_iff read).1 noSync
  · refine (if_pos loops).trans (withBytes_of_written written fun bs read => if_neg ?_)
    exact mt (oggMatch_iff read).1 noMagic
  · refine (if_pos loops).trans ?_
    refine withBytes_of_written (written.part (Nat.le_refl _) (by omega)) fun front readFront => ?_
    refine withBytes_of_written (written.part (by omega) (by omega)) fun size readSize => if_neg ?_
    exact mt (id3Match_iff readFront readSize).1 noTag
  · refine (if_pos loops).trans (withBytes_of_written written fun bs read => if_neg ?_)
    exact mt (opusHead_iff read).1 noHead

/-- A candidate with too few bytes left. -/
theorem exec_of_truncated {i : Instr} (body : stepBody i s = .done (truncatedCandidate s)) :
    exec i s = .next { s with steps := s.steps + 1, off := s.off + 1, truncCount := s.truncCount + 1 } := by
  rw [exec_of_done body, truncatedCandidate, noCandidate_eq]

/-- A candidate whose frame size is 0. -/
theorem exec_of_invalid {i : Instr} (body : stepBody i s = .done (invalidCandidate s)) :
    exec i s = .next { s with steps := s.steps + 1, off := s.off + 1, invalidCount := s.invalidCount + 1 } := by
  rw [exec_of_done body, invalidCandidate, noCandidate_eq]

/-- OGG_SCAN at a magic where no page can be decoded (44_ogg.md R312, R317). -/
theorem oggScanBody_of_noPage (loops : s.off.toNat + 5 ≤ len s) (written : Written s s.off.toNat 5)
    (magic : OggMagic s s.off.toNat) (noPage : ∀ page cut, withPage s s.off.toNat page cut = cut) :
    oggScanBody s = .done (truncatedCandidate s) := by
  refine (if_pos loops).trans (withBytes_of_written written fun bs read => ?_)
  rw [if_pos ((oggMatch_iff read).2 magic), noPage]

/-- Settles O44, a clause at a time: the pattern matches, and the test that follows it fails. -/
theorem walksCountBadCandidates : Obligations.WalksCountBadCandidates := by
  refine fun s => ⟨fun loops short written sync => exec_of_truncated ?_,
    fun loops short written magic => exec_of_truncated ?_, fun fixedInside short written magic => exec_of_truncated ?_,
    fun loops short written head => exec_of_truncated ?_, fun loops written sync zeroSize => exec_of_invalid ?_⟩
  · have undecodable : ¬ adtsDecodable s s.off.toNat = true := mt of_decide_eq_true (Nat.not_le.2 short)
    refine (if_pos loops).trans (withBytes_of_written written fun bs read => ?_)
    rw [if_pos ((adtsSyncMatch_iff read).2 sync), if_neg undecodable]
  · exact oggScanBody_of_noPage loops written magic (withPage_of_short short)
  · obtain ⟨seg, count⟩ := exists_byteAt written (Nat.le_add_right _ 26) (by omega)
    rw [segments, ibuf_of_byteAt count] at short
    exact oggScanBody_of_noPage (by omega) (written.part (Nat.le_refl _) (by omega)) magic
      (withPage_of_shortTable count short)
  · refine (if_pos loops).trans (withBytes_of_written written fun bs read => ?_)
    exact (if_pos ((opusHead_iff read).2 head)).trans (if_neg (Nat.not_le.2 short))
  · refine (if_pos loops).trans (withBytes_of_written (written.part (Nat.le_refl _) (by omega)) fun bs read => ?_)
    rw [if_pos ((mpegSyncMatch_iff read).2 sync)]
    refine withBytes_of_written (written.part (Nat.le_refl _) (by omega)) fun header readHeader => if_neg ?_
    rw [mpegFrameSize_eq readHeader (Nat.le_refl 3), zeroSize]
    exact Nat.lt_irrefl 0

/-- OFF moved on by a bounded amount, from below the largest `L`, does not wrap (10_state.md R47). -/
theorem lt_word_add {off : Word} {advance : Nat} (inside : off.toNat < 2 ^ 31) (moves : 1 ≤ advance)
    (bound : advance ≤ 65307) : off.toNat < (word (off.toNat + advance)).toNat := by
  rw [word, BitVec.toNat_ofNat]
  omega

/-- An engine step inside a buffer of legal length finishes the command or moves OFF forward (40_engine.md R167). -/
theorem StepEffect.idle_or_forward {i : Instr} {t : State} (h : StepEffect i s t) (ranges : s.params.wellFormed = true)
    (fits : len s ≤ s.params.ibufCap) : t.phase = .idle ∨ s.off.toNat < t.off.toNat := by
  simp only [Params.wellFormed, Bool.and_eq_true, decide_eq_true_eq] at ranges
  obtain ⟨⟨⟨_, cap⟩, _⟩, adjust⟩ := ranges
  have short (inside : s.off.toNat < bufferLength s) : s.off.toNat < 2 ^ 31 := by
    have : bufferLength s ≤ 2 ^ 31 := Nat.le_trans fits cap
    omega
  cases h with
  | answered | cleared | recorded | ended | found => exact .inl rfl
  | skipped _ inside | cut _ inside | rejected _ inside =>
    exact .inr (lt_word_add (short inside) (Nat.le_refl 1) (by omega))
  | frame words invalid size advance _ inside _ _ moves bound => exact .inr (lt_word_add (short inside) moves bound)
  | page words invalid size pageNum _ inside _ _ least bound =>
    exact .inr (lt_word_add (short inside) (by omega) (by omega))

/-- Settles O50: a step that leaves another, BUSY state took effect and did not finish. -/
theorem walksAlwaysMoveForward : Obligations.WalksAlwaysMoveForward := by
  intro s t i _ ranges fits _ h moved busy
  rcases exec_next h with effect | ⟨_, same⟩
  · rcases StepEffect.idle_or_forward effect ranges fits with idle | forward
    · exact Phase.noConfusion (idle.symm.trans busy)
    · exact forward
  · exact absurd same moved

end Sys2Proof.Claims
end

section
/-! Command acceptance: what a CMD write does, word by word (40_engine.md R151 to R154). -/

namespace Sys2Proof.Machine

theorem decode_encode (i : Instr) : decode (encode i) = .command i := (Claims.decodeEncodeAgree _ i).2 rfl

theorem acceptCommand_encode_of_inRange {i : Instr} {s : State} (inside : outOfRange i s = false) :
    acceptCommand (encode i) s = startEngine (encode i) (latchCommand (encode i) s) := by
  simp only [acceptCommand, decode_encode, inside, Bool.false_eq_true, if_false]

theorem acceptCommand_encode_of_outOfRange {i : Instr} {s : State} (out : outOfRange i s = true) :
    acceptCommand (encode i) s = finish .range (latchCommand (encode i) s) := by
  simp only [acceptCommand, decode_encode, out, if_true]

theorem acceptCommand_of_illegal {w : Word} {why : Illegal} (word : decode w = .illegal why) (s : State) :
    acceptCommand w s = finish .illegal (latchCommand w s) := by
  simp only [acceptCommand, word]

theorem takeMove_cmdWrite (w : Word) (s : State) : takeMove (.regWrite 0x08 32 w) s = .next (writeCmd w s) :=
  regWrite_regOffset .cmd w s

/-- A CMD write while IDLE is acceptance (R151). -/
theorem cmdWrite_of_idle {s : State} (idle : s.phase = .idle) (w : Word) :
    takeMove (.regWrite 0x08 32 w) s = .next (acceptCommand w s) := by
  simp only [takeMove_cmdWrite, writeCmd, idle]

theorem outOfRange_iff {i : Instr} {s : State} :
    outOfRange i s = true ↔ readsBuf i = true ∧ s.params.ibufCap < s.bufLen.toNat := by
  simp only [outOfRange, Bool.and_eq_true, decide_eq_true_eq]

end Sys2Proof.Machine

namespace Sys2Proof.Claims

open Sys2Proof.Machine

theorem opcField_eq_ofNat (w : Word) : opcField w = BitVec.ofNat 8 (w.toNat % 2 ^ 8) := by
  rw [← opcField_toNat, BitVec.ofNat_toNat, BitVec.setWidth_eq]

/-- Settles O6: the word decodes to its command, whose RANGE check passes. -/
theorem legalCommandIsAccepted : Obligations.LegalCommandIsAccepted := by
  intro s i idle passes
  have inside : outOfRange i s = false := Bool.eq_false_iff.2 (mt outOfRange_iff.1 passes)
  rw [cmdWrite_of_idle idle, acceptCommand_encode_of_inRange inside, startEngine, opcField_eq_ofNat]
  rfl

/-- The check of the word's two fields fails exactly on the illegal words (30_encoding.md R102). -/
theorem decode_illegal_of_not_wellFormed {w : Word} (h : wordWellFormed w = false) :
    ∃ why, decode w = .illegal why := by
  rw [decode_illegal_iff, Ne, rsvdField_eq_zero_iff, decodeOpcode_eq_none_iff, opcField_toNat]
  simpa [wordWellFormed, reservedBitsZero, opcodeKnown, imp_iff_not_or] using h

/-- Settles O7: an illegal word is judged before the RANGE check. -/
theorem illegalCommandEndsAtOnce : Obligations.IllegalCommandEndsAtOnce := by
  intro s w idle notWord
  obtain ⟨why, word⟩ := decode_illegal_of_not_wellFormed notWord
  rw [cmdWrite_of_idle idle, acceptCommand_of_illegal word]
  rfl

/-- Settles O8: the RANGE check fails; which commands it is for is their column of the opcode table. -/
theorem longBufferEndsInRange : Obligations.LongBufferEndsInRange := by
  refine ⟨fun s i idle reads long => ?_, fun i => by cases i <;> decide⟩
  rw [cmdWrite_of_idle idle, acceptCommand_encode_of_outOfRange (outOfRange_iff.2 ⟨reads, long⟩)]
  rfl

/-- Settles O9. -/
theorem busyCommandIsRejected : Obligations.BusyCommandIsRejected := by
  intro s w busy
  simp only [takeMove_cmdWrite, writeCmd, busy]

/-- The command `i` accepted from `s`, its CMD write and the engine's turn taken off the script. -/
abbrev startedAlone (i : Instr) (s : State) : State :=
  { startEngine (encode i) (latchCommand (encode i) s) with script := [] }

/-- A command that does not read IBUF, written while IDLE and then given the engine's turn, takes its step. -/
theorem run_cmdWrite_engine {s t : State} {i : Instr} (idle : s.phase = .idle)
    (moves : s.script = [.regWrite 0x08 32 (encode i), .engine]) (noBuffer : readsBuf i = false)
    (runs : exec i (startedAlone i s) = .next t) : core.run 2 s = .next t := by
  have inside : outOfRange i { s with script := [.engine] } = false := by
    simp only [outOfRange, noBuffer, Bool.false_and]
  have accepts : step s = .next (startEngine (encode i) (latchCommand (encode i) { s with script := [.engine] })) := by
    rw [step_of_nextMove moves, cmdWrite_of_idle (s := { s with script := [.engine] }) idle,
      acceptCommand_encode_of_inRange inside]
  have turn : step (startEngine (encode i) (latchCommand (encode i) { s with script := [.engine] })) = .next t := by
    rw [step_of_nextMove rfl]
    exact (engineTurn_of_busy (s := startedAlone i s) rfl (decodeOpcode_opcField_encode i)).trans runs
  rw [run_succ accepts, run_succ turn]
  rfl

/-- Settles O26: two moves, the second NOP's step. -/
theorem nopRunsFromIdle : Obligations.NopRunsFromIdle :=
  ⟨fun _ => rfl, fun _ idle moves => run_cmdWrite_engine (i := .nop) idle moves rfl rfl⟩

/-- Settles O27: two moves, the second FIFO_CLEAR's step. -/
theorem fifoClearEmptiesTheFifo : Obligations.FifoClearEmptiesTheFifo :=
  ⟨fun _ => rfl, fun _ idle moves =>
    ⟨_, run_cmdWrite_engine (i := .fifoClear) idle moves rfl rfl, rfl, rfl, rfl⟩⟩

/-! Acceptance overwrites all that the command before left (40_engine.md R151, R166). -/

/-- The acceptance actions leave states alike, but for `op`, where phase, parameters, operands and the bytes below `L`
are. -/
theorem latchCommand_alike {s s' : State} (w : Word) (phase : s.phase = s'.phase) (params : s.params = s'.params)
    (bufLen : s.bufLen = s'.bufLen) (arg0 : s.arg0 = s'.arg0) (arg1 : s.arg1 = s'.arg1)
    (below : ∀ a < len s, byteAt s.ibuf a = byteAt s'.ibuf a) :
    SameToCommand (latchCommand w s) { latchCommand w s' with op := s.op } := by
  simp only [SameToCommand, latchCommand, phase, params, bufLen, arg0, arg1, and_true, true_and]
  rwa [len, bufLen] at below

/-- `op` and phase are what acceptance writes last (R151). -/
theorem SameToCommand.startEngine {t t' : State} {opc : Byte} (same : SameToCommand t { t' with op := opc })
    (w : Word) : SameToCommand (startEngine w t) (startEngine w t') := by
  cases t
  cases t'
  simp_all [SameToCommand, len, Machine.startEngine]

theorem acceptCommand_fifo (w : Word) (s : State) : (acceptCommand w s).fifo = s.fifo := by
  unfold acceptCommand
  split
  · rfl
  · split <;> rfl

/-- Settles O55, by how the word is judged, which the two states agree on. -/
theorem acceptanceForgetsThePast : Obligations.AcceptanceForgetsThePast := by
  intro s s' t w idle idle' params bufLen arg0 arg1 below h
  rw [cmdWrite_of_idle idle] at h
  cases h
  refine ⟨_, cmdWrite_of_idle idle' w, ?_⟩
  rw [← and_assoc]
  refine ⟨?_, acceptCommand_fifo w s, acceptCommand_fifo w s'⟩
  have latched := latchCommand_alike w (idle.trans idle'.symm) params bufLen arg0 arg1 below
  cases word : decode w with
  | illegal why =>
    rw [acceptCommand_of_illegal word, acceptCommand_of_illegal word]
    exact ⟨latched.finish .illegal, Phase.noConfusion⟩
  | command i =>
    obtain rfl := (decodeEncodeAgree w i).1 word
    have sameCheck : outOfRange i s' = outOfRange i s := by simp only [outOfRange, params, bufLen]
    cases check : outOfRange i s with
    | true =>
      rw [acceptCommand_encode_of_outOfRange check, acceptCommand_encode_of_outOfRange (sameCheck.trans check)]
      exact ⟨latched.finish .range, Phase.noConfusion⟩
    | false =>
      rw [acceptCommand_encode_of_inRange check, acceptCommand_encode_of_inRange (sameCheck.trans check)]
      have started := latched.startEngine (encode i)
      exact ⟨started, fun _ => started⟩

end Sys2Proof.Claims
end

section
/-! The extraction law (41_bitfield.md R200, R204), the operands that choose a field (30_encoding.md R104), and the
two commands that answer one (R201, R202). -/

namespace Sys2Proof.Machine

theorem extract_eq (v w s : Nat) : extract v w s = v / 2 ^ s % 2 ^ w := by
  rw [extract, Nat.shiftRight_eq_div_pow]

/-- A shift leaves as many bits as it does not take away. -/
theorem div_two_pow_lt {v k s m : Nat} (bits : v < 2 ^ k) (left : k ≤ s + m) : v / 2 ^ s < 2 ^ m := by
  apply Nat.div_lt_of_lt_mul
  rw [← Nat.pow_add]
  exact bits.trans_le (Nat.pow_le_pow_right Nat.two_pos left)

theorem arg1W_eq (s : State) : arg1W s = s.arg1.toNat % 64 := by
  rw [arg1W, BitVec.extractLsb'_toNat, Nat.shiftRight_zero]

theorem arg1S_eq (s : State) : arg1S s = s.arg1.toNat / 2 ^ 8 % 64 := by
  rw [arg1S, BitVec.extractLsb'_toNat, Nat.shiftRight_eq_div_pow]

/-- The field that ARG1 chooses. -/
theorem extract_arg1 (v : Nat) (s : State) :
    extract v (arg1W s) (arg1S s) = v / 2 ^ (s.arg1.toNat / 2 ^ 8 % 64) % 2 ^ (s.arg1.toNat % 64) := by
  rw [extract_eq, arg1W_eq, arg1S_eq]

end Sys2Proof.Machine

namespace Sys2Proof.Claims

open Sys2Proof.Machine

variable {s : State} {a n : Nat} {bs : List Byte}

/-- `BE` without its first byte, which is the most significant. -/
theorem beSum_succ (s : State) (a n : Nat) : beSum s a (n + 1) = ibuf s a * 256 ^ n + beSum s (a + 1) n := by
  rw [beSum, beSum, List.range_succ_eq_map, List.map_cons, List.sum_cons, List.map_map]
  congr 1
  · rw [Nat.add_zero, Nat.add_sub_cancel, Nat.sub_zero, Nat.pow_mul]
  · refine congrArg List.sum (List.map_congr_left fun i _ => ?_)
    rw [Function.comp_apply, Nat.succ_eq_add_one, Nat.add_right_comm, ← Nat.add_assoc, Nat.add_sub_cancel,
      Nat.sub_sub, Nat.add_comm 1]

/-- Bytes assembled big-endian are the spec's sum over the numbers they are (00_scope.md R11). -/
theorem be_eq_beSum (numbers : bs.map BitVec.toNat = (List.range n).map fun i => ibuf s (a + i)) :
    be bs = beSum s a n := by
  have length : bs.length = n := by simpa using congrArg List.length numbers
  subst length
  induction bs generalizing a with
  | nil => rfl
  | cons b rest ih =>
    rw [List.length_cons, List.range_succ_eq_map, List.map_cons, List.map_cons, List.map_map] at numbers
    obtain ⟨first, others⟩ := List.cons.inj numbers
    have others : rest.map BitVec.toNat = (List.range rest.length).map fun i => ibuf s (a + 1 + i) := by
      simpa [Function.comp_def, Nat.add_assoc, Nat.add_comm 1] using others
    rw [be, List.length_cons, beSum_succ, ih others, first, Nat.add_zero]

theorem be_of_memRead (read : memRead s.ibuf a n = .ok bs) : be bs = beSum s a n :=
  be_eq_beSum (map_toNat_of_memRead read)

/-- Settles O28: what a shift leaves bounds the field. -/
theorem extractionLaw : Obligations.ExtractionLaw := by
  refine ⟨fun v w s => ⟨extract_eq v w s, ?_⟩, fun v w s k bits => ⟨fun wide => ?_, fun far => ?_, fun empty => ?_⟩⟩
  · exact Nat.mod_lt _ (Nat.two_pow_pos w)
  · have short : v / 2 ^ s < 2 ^ (w - 1) := div_two_pow_lt bits (by omega)
    have fits : v / 2 ^ s < 2 ^ w := short.trans_le (Nat.pow_le_pow_right Nat.two_pos (Nat.sub_le w 1))
    exact ⟨by rw [extract_eq, Nat.mod_eq_of_lt fits], short⟩
  · have nothing : v / 2 ^ s = 0 := Nat.lt_one_iff.1 (div_two_pow_lt (m := 0) bits far)
    rw [extract_eq, nothing, Nat.zero_mod]
  · rw [empty, extract_eq, Nat.pow_zero, Nat.mod_one]

/-- Settles O29. -/
theorem extractWritesTheField : Obligations.ExtractWritesTheField := by
  intro s
  rw [← extract_arg1]
  rfl

/-- Settles O30, on either side of `L`: on written bytes the span is read, and its assembly is the spec's sum. -/
theorem extractBufWritesTheField : Obligations.ExtractBufWritesTheField := by
  rintro s _ rfl
  rw [← arg1N_eq]
  refine ⟨fun inside written => exec_of_done ?_, fun short => exec_of_done (if_pos short)⟩
  refine (if_neg (Nat.not_lt.2 inside)).trans (withBytes_of_written written fun bs read => ?_)
  rw [extract_arg1, be_of_memRead read]
  rfl

end Sys2Proof.Claims
end

section
/-! A record for which the FIFO has room, pushed by a one-shot and by a scan (40_engine.md R157, R160 to R163): the
whole state that the step leaves. -/

namespace Sys2Proof.Claims

open Sys2Proof.Machine

variable {s : State}

/-- Room for a nonempty record is what `Push` tests. -/
theorem Room.fits {n : Nat} (room : Room s n) (nonempty : 0 < n) : s.fifo.length + n ≤ s.params.outDepth := by
  omega

theorem pushOne_of_room {words : List Word} (room : Room s words.length) (nonempty : 0 < words.length) (bad : Bool) :
    pushOne s words bad .ok = .done (decoded s words bad) :=
  pushOne_done.2 ⟨Room.fits room nonempty, rfl⟩

/-- The INCOMPLETE bit compares the offset with `prev_end` as words (40_engine.md R161). -/
theorem incomplete_off (s : State) : incomplete s s.off.toNat = isIncomplete s := by
  have sameTest : (s.off.toNat != s.prevEnd.toNat) = (s.off != s.prevEnd) := by
    rw [Bool.eq_iff_iff, bne_iff_ne, bne_iff_ne, Ne, BitVec.toNat_inj]
  rw [incomplete, sameTest]

theorem pushHeader_of_room {record : Bool → List Word} (room : Room s (record (isIncomplete s)).length)
    (nonempty : 0 < (record (isIncomplete s)).length) (bad : Bool) (size advance : Nat) :
    pushHeader s record bad size advance id = .done (scanned s (record (isIncomplete s)) bad size advance) := by
  rw [pushHeader_done, incomplete_off, setOff, word_toNat_add, chain, word_toNat_add]
  refine ⟨Room.fits room nonempty, ?_⟩
  simp only [id_eq, countRecord, appendWords, countStep]

end Sys2Proof.Claims
end

section
/-! The words of an ADTS record as numbers, each field at its weight (30_encoding.md R111). -/

namespace Sys2Proof.Machine

variable (h : AdtsHeader)

theorem adtsFlagsWord_eq (inc : Bool) :
    recordHeader 0x01 6 (0#11 ++ bit (adtsLayerInvalid h) ++ bit (adtsSizeInvalid h) ++ bit (adtsSrInvalid h)
      ++ bit (adtsCrcPresent h)) inc =
      BitVec.ofNat 32 (0x01 + 6 * 2 ^ 8 + (adtsCrcPresent h).toNat * 2 ^ 16 + (adtsSrInvalid h).toNat * 2 ^ 17
        + (adtsSizeInvalid h).toNat * 2 ^ 18 + (adtsLayerInvalid h).toNat * 2 ^ 19 + inc.toNat * 2 ^ 31) := by
  refine (BitVec.toNat_eq_nat.1 ?_).2
  simp only [recordHeader_toNat, toNat_append_eq_add, toNat_bit, BitVec.ofNat_eq_ofNat, BitVec.toNat_ofNat]
  omega

theorem adtsHeaderSize_le : adtsHeaderSize h ≤ 9 := by
  unfold adtsHeaderSize
  split <;> decide

theorem adtsFieldsWord_eq :
    0#4 ++ BitVec.ofNat 4 (adtsHeaderSize h) ++ 0#1 ++ BitVec.ofNat 3 (adtsFrameCount h) ++ h.rdbCount
      ++ h.copyrightIdStart ++ h.copyrightIdBit ++ h.home ++ h.originality ++ h.channelConfigIndex ++ h.privateBit
      ++ h.samplingFrequencyIndex ++ h.profileIndex ++ h.protectionAbsent ++ h.layer ++ h.version =
      BitVec.ofNat 32 (h.version.toNat + h.layer.toNat * 2 + h.protectionAbsent.toNat * 2 ^ 3
        + h.profileIndex.toNat * 2 ^ 4 + h.samplingFrequencyIndex.toNat * 2 ^ 6 + h.privateBit.toNat * 2 ^ 10
        + h.channelConfigIndex.toNat * 2 ^ 11 + h.originality.toNat * 2 ^ 14 + h.home.toNat * 2 ^ 15
        + h.copyrightIdBit.toNat * 2 ^ 16 + h.copyrightIdStart.toNat * 2 ^ 17 + h.rdbCount.toNat * 2 ^ 18
        + (h.rdbCount.toNat + 1) * 2 ^ 20 + adtsHeaderSize h * 2 ^ 24) := by
  have size := adtsHeaderSize_le h
  have count := h.rdbCount.isLt
  refine (BitVec.toNat_eq_nat.1 ?_).2
  simp only [toNat_append_eq_add, BitVec.toNat_ofNat, adtsFrameCount]
  omega

theorem adtsSizesWord_eq :
    0#5 ++ h.bufferFullness ++ 0#3 ++ h.frameSize =
      BitVec.ofNat 32 (h.frameSize.toNat + h.bufferFullness.toNat * 2 ^ 16) := by
  refine (BitVec.toNat_eq_nat.1 ?_).2
  simp only [toNat_append_eq_add, BitVec.toNat_ofNat]
  omega

theorem adtsCrcWord_eq :
    0#16 ++ (if adtsCrcPresent h then h.crcField else 0#16) =
      BitVec.ofNat 32 (if adtsCrcPresent h then h.crcField.toNat else 0) := by
  refine (BitVec.toNat_eq_nat.1 ?_).2
  rw [toNat_append_eq_add, BitVec.toNat_ofNat, Nat.zero_mod, Nat.zero_mul, Nat.zero_add, apply_ite BitVec.toNat]
  rfl

end Sys2Proof.Machine
end

section
/-! The ADTS header that stands in written bytes, as the spec's own numbers (42_adts.md R221 to R224, 30_encoding.md
R111). -/

namespace Sys2Proof.Claims

open Sys2Proof.Machine

variable {s : State} {a n : Nat} {bs : List Byte}

/-- A field that spans bytes of those read (41_bitfield.md R203). -/
theorem field_toNat (read : memRead s.ibuf a n = .ok bs) {first m : Nat} (inside : first + m ≤ n) (w shift : Nat) :
    (field bs first m w shift).toNat = beSum s (a + first) m / 2 ^ shift % 2 ^ w := by
  have numbers : (slice bs first m).map BitVec.toNat = (List.range m).map fun i => ibuf s (a + first + i) := by
    rw [slice, List.map_take, List.map_drop, map_toNat_of_memRead read]
    apply List.ext_getElem
    · simp
      omega
    · simp [Nat.add_assoc]
  rw [field, BitVec.toNat_ofNat, extract_eq, Nat.mod_mod, be_eq_beSum numbers]

theorem beSum_two (s : State) (a : Nat) : beSum s a 2 = ibuf s a * 2 ^ 8 + ibuf s (a + 1) := by
  simp [beSum, List.range_succ]

theorem beSum_three (s : State) (a : Nat) :
    beSum s a 3 = ibuf s a * 2 ^ 16 + ibuf s (a + 1) * 2 ^ 8 + ibuf s (a + 2) := by
  simp [beSum, List.range_succ, Nat.add_assoc]

/-- The model's sample-rate table is the spec's, reserved and forbidden indices included (10_state.md R40). -/
theorem adtsRate_table : ∀ i : BitVec 4, tc32 (adtsSampleRate i) = BitVec.ofNat 32 (adtsRateWord i.toNat) := by decide

section
variable (read : memRead s.ibuf a 9 = .ok bs)
include read

theorem adtsDecode_layer : (adtsDecode bs).layer.toNat = adtsLayer s a :=
  field_one_toNat read (by decide) 2 1

theorem adtsDecode_protectionAbsent : (adtsDecode bs).protectionAbsent.toNat = adtsProtectionAbsent s a := by
  rw [adtsDecode, field_one_toNat read (by decide), Nat.pow_zero, Nat.div_one]
  rfl

theorem adtsDecode_samplingFrequencyIndex : (adtsDecode bs).samplingFrequencyIndex.toNat = adtsSfi s a :=
  field_one_toNat read (by decide) 4 2

theorem adtsDecode_version : (adtsDecode bs).version.toNat = ibuf s (a + 1) / 8 % 2 :=
  field_one_toNat read (by decide) 1 3

theorem adtsDecode_profileIndex : (adtsDecode bs).profileIndex.toNat = ibuf s (a + 2) / 64 := by
  have byte := ibuf_lt s (a + 2)
  rw [adtsDecode, field_one_toNat read (by decide)]
  omega

theorem adtsDecode_privateBit : (adtsDecode bs).privateBit.toNat = ibuf s (a + 2) / 2 % 2 :=
  field_one_toNat read (by decide) 1 1

theorem adtsDecode_originality : (adtsDecode bs).originality.toNat = ibuf s (a + 3) / 32 % 2 :=
  field_one_toNat read (by decide) 1 5

theorem adtsDecode_home : (adtsDecode bs).home.toNat = ibuf s (a + 3) / 16 % 2 :=
  field_one_toNat read (by decide) 1 4

theorem adtsDecode_copyrightIdBit : (adtsDecode bs).copyrightIdBit.toNat = ibuf s (a + 3) / 8 % 2 :=
  field_one_toNat read (by decide) 1 3

theorem adtsDecode_copyrightIdStart : (adtsDecode bs).copyrightIdStart.toNat = ibuf s (a + 3) / 4 % 2 :=
  field_one_toNat read (by decide) 1 2

theorem adtsDecode_rdbCount : (adtsDecode bs).rdbCount.toNat = ibuf s (a + 6) % 4 := by
  rw [adtsDecode, field_one_toNat read (by decide), Nat.pow_zero, Nat.div_one]
  rfl

theorem adtsDecode_channelConfigIndex :
    (adtsDecode bs).channelConfigIndex.toNat = ibuf s (a + 2) % 2 * 4 + ibuf s (a + 3) / 64 := by
  have sum : beSum s (a + 2) 2 = ibuf s (a + 2) * 2 ^ 8 + ibuf s (a + 3) := beSum_two s (a + 2)
  have byte := ibuf_lt s (a + 3)
  rw [adtsDecode, field_toNat read (by decide), sum]
  omega

theorem adtsDecode_frameSize : (adtsDecode bs).frameSize.toNat = adtsFrameSize s a := by
  have sum : beSum s (a + 3) 3 = ibuf s (a + 3) * 2 ^ 16 + ibuf s (a + 4) * 2 ^ 8 + ibuf s (a + 5) :=
    beSum_three s (a + 3)
  have middle := ibuf_lt s (a + 4)
  have low := ibuf_lt s (a + 5)
  rw [adtsDecode, field_toNat read (by decide), sum, adtsFrameSize]
  omega

theorem adtsDecode_bufferFullness :
    (adtsDecode bs).bufferFullness.toNat = ibuf s (a + 5) % 32 * 64 + ibuf s (a + 6) / 4 := by
  have sum : beSum s (a + 5) 2 = ibuf s (a + 5) * 2 ^ 8 + ibuf s (a + 6) := beSum_two s (a + 5)
  have byte := ibuf_lt s (a + 6)
  rw [adtsDecode, field_toNat read (by decide), sum]
  omega

theorem adtsDecode_crcField : (adtsDecode bs).crcField.toNat = ibuf s (a + 7) * 256 + ibuf s (a + 8) := by
  have sum : beSum s (a + 7) 2 = ibuf s (a + 7) * 2 ^ 8 + ibuf s (a + 8) := beSum_two s (a + 7)
  have high := ibuf_lt s (a + 7)
  have low := ibuf_lt s (a + 8)
  rw [adtsDecode, field_toNat read (by decide), sum]
  omega

/-! The derived fields and the flags (42_adts.md R223, R224). -/

theorem adtsHeaderSize_eq : adtsHeaderSize (adtsDecode bs) = adtsHeaderBytes s a := by
  have crcless : (adtsDecode bs).protectionAbsent = 1 ↔ adtsProtectionAbsent s a = 1 := by
    rw [← adtsDecode_protectionAbsent read, ← BitVec.toNat_inj]
    rfl
  simp only [adtsHeaderSize, adtsHeaderBytes, crcless]

theorem adtsCrcPresent_iff : adtsCrcPresent (adtsDecode bs) = true ↔ adtsProtectionAbsent s a = 0 := by
  rw [adtsCrcPresent, beq_iff_eq, ← BitVec.toNat_inj, adtsDecode_protectionAbsent read]
  rfl

theorem adtsSrInvalid_iff : adtsSrInvalid (adtsDecode bs) = true ↔ 13 ≤ adtsSfi s a := by
  rw [adtsSrInvalid, decide_eq_true_iff, adtsDecode_samplingFrequencyIndex read]

theorem adtsSizeInvalid_iff : adtsSizeInvalid (adtsDecode bs) = true ↔ adtsFrameSize s a < adtsHeaderBytes s a := by
  rw [adtsSizeInvalid, decide_eq_true_iff, adtsDecode_frameSize read, adtsHeaderSize_eq read]

theorem adtsLayerInvalid_iff : adtsLayerInvalid (adtsDecode bs) = true ↔ adtsLayer s a ≠ 0 := by
  rw [adtsLayerInvalid, bne_iff_ne, Ne, ← BitVec.toNat_inj, adtsDecode_layer read]
  rfl

theorem adtsInvalid_eq : adtsInvalid (adtsDecode bs) = decide (AdtsBad s a) := by
  rw [Bool.eq_iff_iff, decide_eq_true_iff, adtsInvalid, Bool.or_eq_true, Bool.or_eq_true, adtsSrInvalid_iff read,
    adtsSizeInvalid_iff read, adtsLayerInvalid_iff read, or_assoc]

theorem adtsAdvance_eq :
    adtsAdvance (adtsDecode bs) = if adtsFrameSize s a = 0 then 1 else adtsFrameSize s a := by
  rw [adtsAdvance, adtsDecode_frameSize read]

/-! The record (30_encoding.md R111). -/

theorem adtsRecord_eq (inc : Bool) : adtsRecord a (adtsDecode bs) inc = adtsWords s a inc := by
  rw [adtsRecord, adtsFlagsWord_eq, adtsFieldsWord_eq, adtsSizesWord_eq, adtsCrcWord_eq, adtsRate_table, adtsWords,
    word]
  rw [flag_eq_toNat (adtsCrcPresent_iff read), flag_eq_toNat (adtsSrInvalid_iff read),
    flag_eq_toNat (adtsSizeInvalid_iff read), flag_eq_toNat (adtsLayerInvalid_iff read),
    flag_eq_toNat (b := inc) Iff.rfl,
    adtsDecode_version read, adtsDecode_layer read, adtsDecode_protectionAbsent read, adtsDecode_profileIndex read,
    adtsDecode_samplingFrequencyIndex read, adtsDecode_privateBit read, adtsDecode_channelConfigIndex read,
    adtsDecode_originality read, adtsDecode_home read, adtsDecode_copyrightIdBit read,
    adtsDecode_copyrightIdStart read, adtsDecode_rdbCount read, adtsHeaderSize_eq read, adtsDecode_frameSize read,
    adtsDecode_bufferFullness read, adtsDecode_crcField read]
  simp only [adtsCrcPresent_iff read]

end

end Sys2Proof.Claims
end

section
/-! The ADTS commands, and the one-shots that find too few bytes (42_adts.md R225 to R228; 60_exceptions.md R401). -/

namespace Sys2Proof.Claims

open Sys2Proof.Machine

/-- Settles O31: the two bytes read match exactly where they are one of the four patterns. -/
theorem adtsSyncAcceptsFourPatterns : Obligations.AdtsSyncAcceptsFourPatterns := by
  intro s inside written
  refine exec_of_done ((if_neg (Nat.not_lt.2 inside)).trans (withBytes_of_written written fun bs read => ?_))
  simp only [adtsSyncMatch_iff read]
  rfl

/-- Settles O38: the nine bytes read decode to the spec's record, for which there is room. -/
theorem adtsDecodePushesTheHeader : Obligations.AdtsDecodePushesTheHeader := by
  intro s inside written room
  have decodable : adtsDecodable s (arg0Value s) = true := decide_eq_true inside
  refine exec_of_done ((if_pos decodable).trans (withBytes_of_written written fun bs read => ?_))
  rw [arg0Value, adtsRecord_eq read, adtsInvalid_eq read]
  exact pushOne_of_room (words := adtsWords s _ false) room (Nat.succ_pos 5) _

/-- Settles O45: the sync matches, and the nine bytes read decode to the spec's record, for which there is room. -/
theorem adtsScanPushesAndAdvances : Obligations.AdtsScanPushesAndAdvances := by
  intro s inside written sync room
  have loops : s.off.toNat + 7 < bufferLength s := Nat.lt_of_lt_of_le (by omega) inside
  have decodable : adtsDecodable s s.off.toNat = true := decide_eq_true inside
  refine exec_of_done ((if_pos loops).trans ?_)
  refine withBytes_of_written (written.part (Nat.le_refl _) (by omega)) fun bs readSync => ?_
  rw [if_pos ((adtsSyncMatch_iff readSync).2 sync), if_pos decodable]
  refine withBytes_of_written written fun bs read => ?_
  rw [← adtsRecord_eq read, ← adtsInvalid_eq read, ← adtsAdvance_eq read, ← adtsDecode_frameSize read]
  exact pushHeader_of_room (record := adtsRecord _ (adtsDecode bs)) room (Nat.succ_pos 5) _ _ _

/-- OGG_DECODE where no page can be decoded (44_ogg.md R312, R316). -/
theorem oggDecodeBody_of_noPage {s : State} (noPage : ∀ page cut, withPage s s.arg0.toNat page cut = cut) :
    oggDecodeBody s = .done (finish .truncated s) :=
  noPage _ _

/-- Settles O35: each one-shot's test against `L` fails; OGG_DECODE's second test is of its segment table. -/
theorem shortOneShotsAreTruncated : Obligations.ShortOneShotsAreTruncated := by
  refine fun s => ⟨fun short => ⟨exec_of_done (if_pos short), exec_of_done (if_pos short)⟩,
    fun short => exec_of_done (if_pos short), fun short => exec_of_done (if_pos short),
    fun short => exec_of_done (if_pos short), fun short => exec_of_done (if_neg ?_),
    fun short => exec_of_done (if_pos short),
    fun short => exec_of_done (oggDecodeBody_of_noPage (withPage_of_short short)),
    fun _ written shortTable => exec_of_done ?_⟩
  · exact mt of_decide_eq_true (Nat.not_le.2 short)
  · obtain ⟨seg, count⟩ := exists_byteAt written (Nat.le_refl _) (Nat.lt_succ_self _)
    rw [segments, ibuf_of_byteAt count] at shortTable
    exact oggDecodeBody_of_noPage (withPage_of_shortTable count shortTable)

end Sys2Proof.Claims
end

section
/-! Which MPEG-audio headers have a bitrate, a sample rate and so a frame size (43_mp3.md R263 to R266). -/

namespace Sys2Proof.Machine

theorem bitrateTable_mem (v : MpegVersion) (l : MpegLayer) :
    ∀ t ∈ bitrateTable v l, t ∈ [brV1L1, brV1L2, brV1L3, brV2L1, brV2L23] := by
  cases v <;> cases l <;> decide

/-- The bitrate is none, or free format's 0 at index 0, or one of the tables', 8 kbit/s at least (10_state.md R41). -/
theorem mpegBitrate_cases (h : MpegHeader) :
    mpegBitrate h = -1 ∨ (mpegBitrate h = 0 ∧ h.bitrateIndex = 0) ∨ (8000 ≤ mpegBitrate h ∧ h.bitrateIndex ≠ 0) := by
  have least : ∀ t ∈ [brV1L1, brV1L2, brV1L3, brV2L1, brV2L23], ∀ i : BitVec 4, i ≠ 0 → i ≠ 15 →
      8 ≤ t.getD (i.toNat - 1) 0 := by decide
  unfold mpegBitrate
  split
  · exact .inl rfl
  · rename_i table chosen
    have listed := bitrateTable_mem _ _ table chosen
    split
    · exact .inr (.inl ⟨rfl, ‹_›⟩)
    · split
      · exact .inl rfl
      · have := least table listed h.bitrateIndex ‹_› ‹_›
        exact .inr (.inr ⟨by omega, ‹_›⟩)

theorem mpegRate_le (h : MpegHeader) : mpegRate h ≤ 48000 := by
  have most : ∀ v : MpegVersion, ∀ r : BitVec 2, mpegSampleRate v r ≤ 48000 := by
    intro v
    cases v <;> decide
  exact most _ _

/-- An Invalid version or layer has no bitrate, so two of the four flags say all (43_mp3.md R263, R266). -/
theorem mpegInvalid_iff (h : MpegHeader) : mpegInvalid h = true ↔ mpegBitrate h = -1 ∨ mpegRate h = -1 := by
  have noVersion : h.version = .invalid → mpegBitrate h = -1 := fun invalid => by
    rw [mpegBitrate, invalid, bitrateTable]
  have noLayer : h.layer = .invalid → mpegBitrate h = -1 := fun invalid => by
    rw [mpegBitrate, invalid]
    cases h.version <;> rfl
  simp only [mpegInvalid, mpegVersionInvalid, mpegLayerInvalid, mpegBitrateInvalid, mpegSrInvalid, Bool.or_eq_true,
    beq_iff_eq]
  constructor
  · rintro (((invalid | invalid) | noBitrate) | noRate)
    · exact .inl (noVersion invalid)
    · exact .inl (noLayer invalid)
    · exact .inl noBitrate
    · exact .inr noRate
  · rintro (noBitrate | noRate)
    · exact .inl (.inr noBitrate)
    · exact .inr noRate

/-- The quotient is at least 1 where it is taken at all: the least bitrate by the greatest sample rate. -/
theorem mpegFrameSize_pos_iff (h : MpegHeader) : 0 < mpegFrameSize h ↔ 0 < mpegBitrate h ∧ 0 < mpegRate h := by
  unfold mpegFrameSize
  split
  · rename_i positive
    obtain ⟨bitratePos, ratePos⟩ := positive
    have least : 8000 ≤ mpegBitrate h := by
      rcases mpegBitrate_cases h with noBitrate | ⟨free, _⟩ | ⟨listed, _⟩ <;> omega
    have most := mpegRate_le h
    have quotient : 1 ≤ 144 * mpegBitrate h / (mpegRate h + 8) := Int.le_ediv_of_mul_le (by omega) (by omega)
    exact ⟨fun _ => ⟨bitratePos, ratePos⟩, fun _ => by omega⟩
  · rename_i notBoth
    exact iff_of_false (Nat.lt_irrefl 0) notBoth

/-- The frame size is positive exactly when no field is invalid and the header is not free format. -/
theorem mpegFrameSize_pos_iff_valid (h : MpegHeader) :
    0 < mpegFrameSize h ↔ mpegInvalid h = false ∧ h.bitrateIndex ≠ 0 := by
  rw [mpegFrameSize_pos_iff, ← Bool.not_eq_true, mpegInvalid_iff]
  have rate := mpegRate_cases h
  rcases mpegBitrate_cases h with noBitrate | ⟨free, index⟩ | ⟨listed, index⟩
  · simp [noBitrate]
  · simp [free, index]
  · simp only [ne_eq, index, not_false_eq_true, and_true]
    omega

end Sys2Proof.Machine

namespace Sys2Proof.Claims

open Sys2Proof.Machine

/-- Settles O41. -/
theorem mpegFrameSizeRange : Obligations.MpegFrameSizeRange := fun h =>
  ⟨mpegFrameSize_le h, mpegFrameSize_pos_iff h, mpegFrameSize_pos_iff_valid h⟩

end Sys2Proof.Claims
end

section
/-! The words of an MPEG-audio record as numbers, each field at its weight (30_encoding.md R112). -/

namespace Sys2Proof.Machine

variable (h : MpegHeader)

theorem mpegFlagsWord_eq (inc : Bool) :
    recordHeader 0x02 6 (0#10 ++ bit (mpegFreeFormat h) ++ bit (mpegSrInvalid h) ++ bit (mpegBitrateInvalid h)
      ++ bit (mpegLayerInvalid h) ++ bit (mpegVersionInvalid h)) inc =
      BitVec.ofNat 32 (0x02 + 6 * 2 ^ 8 + (mpegVersionInvalid h).toNat * 2 ^ 16 + (mpegLayerInvalid h).toNat * 2 ^ 17
        + (mpegBitrateInvalid h).toNat * 2 ^ 18 + (mpegSrInvalid h).toNat * 2 ^ 19
        + (mpegFreeFormat h).toNat * 2 ^ 20 + inc.toNat * 2 ^ 31) := by
  refine (BitVec.toNat_eq_nat.1 ?_).2
  simp only [recordHeader_toNat, toNat_append_eq_add, toNat_bit, BitVec.ofNat_eq_ofNat, BitVec.toNat_ofNat]
  omega

theorem mpegFieldsWord_eq :
    0#19 ++ h.privateBit ++ h.padding ++ h.sampleRateIndex ++ h.bitrateIndex ++ h.protection ++ h.layer.code
      ++ h.version.code =
      BitVec.ofNat 32 (h.version.code.toNat + h.layer.code.toNat * 2 ^ 2 + h.protection.toNat * 2 ^ 4
        + h.bitrateIndex.toNat * 2 ^ 5 + h.sampleRateIndex.toNat * 2 ^ 9 + h.padding.toNat * 2 ^ 11
        + h.privateBit.toNat * 2 ^ 12) := by
  refine (BitVec.toNat_eq_nat.1 ?_).2
  simp only [toNat_append_eq_add, BitVec.toNat_ofNat]
  omega

end Sys2Proof.Machine
end

section
/-! The MPEG-audio header that stands in written bytes, as the spec's own numbers (43_mp3.md R261 to R266,
30_encoding.md R112). -/

namespace Sys2Proof.Claims

open Sys2Proof.Machine

variable {s : State} {a n : Nat} {bs : List Byte}

/-! What the version and layer bits mean (43_mp3.md R262), with the codes of 00_scope.md R16. -/

theorem mpegVersion_invalid_iff : ∀ vb : BitVec 2, mpegVersion vb = .invalid ↔ vb.toNat = 1 := by decide

theorem mpegLayer_invalid_iff : ∀ lb : BitVec 2, mpegLayer lb = .invalid ↔ lb.toNat = 0 := by decide

theorem mpegVersion_code : ∀ vb : BitVec 2, (mpegVersion vb).code.toNat = [2, 3, 1, 0].getD vb.toNat 0 := by decide

theorem mpegLayer_code : ∀ lb : BitVec 2, (mpegLayer lb).code.toNat = [3, 2, 1, 0].getD lb.toNat 0 := by decide

section
variable (read : memRead s.ibuf a 3 = .ok bs)
include read

theorem mpegDecode_version : ∃ vb, (mpegDecode bs).version = mpegVersion vb ∧ vb.toNat = mpegVb s a :=
  ⟨_, rfl, field_one_toNat read (by decide) 2 3⟩

theorem mpegDecode_layer : ∃ lb, (mpegDecode bs).layer = mpegLayer lb ∧ lb.toNat = mpegLb s a :=
  ⟨_, rfl, field_one_toNat read (by decide) 2 1⟩

theorem mpegDecode_protection : (mpegDecode bs).protection.toNat = ibuf s (a + 1) % 2 := by
  rw [mpegDecode, field_one_toNat read (by decide), Nat.pow_zero, Nat.div_one]
  rfl

theorem mpegDecode_bitrateIndex : (mpegDecode bs).bitrateIndex.toNat = mpegBi s a := by
  have byte := ibuf_lt s (a + 2)
  rw [mpegDecode, field_one_toNat read (by decide), mpegBi]
  omega

theorem mpegDecode_sampleRateIndex : (mpegDecode bs).sampleRateIndex.toNat = mpegSi s a :=
  field_one_toNat read (by decide) 2 2

theorem mpegDecode_padding : (mpegDecode bs).padding.toNat = ibuf s (a + 2) / 2 % 2 :=
  field_one_toNat read (by decide) 1 1

theorem mpegDecode_privateBit : (mpegDecode bs).privateBit.toNat = ibuf s (a + 2) % 2 := by
  rw [mpegDecode, field_one_toNat read (by decide), Nat.pow_zero, Nat.div_one]
  rfl

theorem mpegDecode_versionCode : (mpegDecode bs).version.code.toNat = [2, 3, 1, 0].getD (mpegVb s a) 0 := by
  obtain ⟨vb, version, bits⟩ := mpegDecode_version read
  rw [version, mpegVersion_code, bits]

theorem mpegDecode_layerCode : (mpegDecode bs).layer.code.toNat = [3, 2, 1, 0].getD (mpegLb s a) 0 := by
  obtain ⟨lb, layer, bits⟩ := mpegDecode_layer read
  rw [layer, mpegLayer_code, bits]

/-! The flags (43_mp3.md R266). -/

theorem mpegVersionInvalid_iff : mpegVersionInvalid (mpegDecode bs) = true ↔ mpegVb s a = 1 := by
  obtain ⟨vb, version, bits⟩ := mpegDecode_version read
  rw [mpegVersionInvalid, beq_iff_eq, version, mpegVersion_invalid_iff, bits]

theorem mpegLayerInvalid_iff : mpegLayerInvalid (mpegDecode bs) = true ↔ mpegLb s a = 0 := by
  obtain ⟨lb, layer, bits⟩ := mpegDecode_layer read
  rw [mpegLayerInvalid, beq_iff_eq, layer, mpegLayer_invalid_iff, bits]

theorem mpegBitrateInvalid_iff : mpegBitrateInvalid (mpegDecode bs) = true ↔ bitrate s a = -1 := by
  rw [mpegBitrateInvalid, beq_iff_eq, mpegBitrate_eq read (Nat.le_refl 3)]

theorem mpegSrInvalid_iff : mpegSrInvalid (mpegDecode bs) = true ↔ sampleRate s a = -1 := by
  rw [mpegSrInvalid, beq_iff_eq, mpegRate_eq read (Nat.le_refl 3)]

theorem mpegFreeFormat_iff :
    mpegFreeFormat (mpegDecode bs) = true ↔ mpegBi s a = 0 ∧ mpegVb s a ≠ 1 ∧ mpegLb s a ≠ 0 := by
  have index : (mpegDecode bs).bitrateIndex = 0 ↔ mpegBi s a = 0 := by
    rw [← mpegDecode_bitrateIndex read, ← BitVec.toNat_inj]
    rfl
  rw [← index, Ne, ← mpegVersionInvalid_iff read, Ne, ← mpegLayerInvalid_iff read]
  simp [mpegFreeFormat, mpegVersionInvalid, mpegLayerInvalid, and_assoc]

theorem mpegInvalid_eq : mpegInvalid (mpegDecode bs) = decide (MpegBad s a) := by
  rw [Bool.eq_iff_iff, decide_eq_true_iff, mpegInvalid, Bool.or_eq_true, Bool.or_eq_true, Bool.or_eq_true,
    mpegVersionInvalid_iff read, mpegLayerInvalid_iff read, mpegBitrateInvalid_iff read, mpegSrInvalid_iff read,
    or_assoc, or_assoc]

/-! The record (30_encoding.md R112). -/

theorem mpegRecord_eq (inc : Bool) : mpegRecord a (mpegDecode bs) inc = mpegWords s a inc := by
  rw [mpegRecord, mpegFlagsWord_eq, mpegFieldsWord_eq, mpegWords, word, word, tc32, tc32]
  rw [flag_eq_toNat (mpegVersionInvalid_iff read), flag_eq_toNat (mpegLayerInvalid_iff read),
    flag_eq_toNat (mpegBitrateInvalid_iff read), flag_eq_toNat (mpegSrInvalid_iff read),
    flag_eq_toNat (mpegFreeFormat_iff read), flag_eq_toNat (b := inc) Iff.rfl,
    mpegDecode_versionCode read, mpegDecode_layerCode read, mpegDecode_protection read,
    mpegDecode_bitrateIndex read, mpegDecode_sampleRateIndex read, mpegDecode_padding read,
    mpegDecode_privateBit read, mpegBitrate_eq read (Nat.le_refl 3), mpegRate_eq read (Nat.le_refl 3),
    mpegFrameSize_eq read (Nat.le_refl 3)]

end

end Sys2Proof.Claims
end

section
/-! The MPEG-audio commands (43_mp3.md R267 to R269, R274). -/

namespace Sys2Proof.Claims

open Sys2Proof.Machine

/-- Settles O32: the two bytes read match exactly where they are a sync. -/
theorem mp3SyncChecksElevenBits : Obligations.Mp3SyncChecksElevenBits := by
  intro s inside written
  refine exec_of_done ((if_neg (Nat.not_lt.2 inside)).trans (withBytes_of_written written fun bs read => ?_))
  simp only [mpegSyncMatch_iff read]
  rfl

/-- Settles O34: the four bytes read are a tag exactly where the numbers are. -/
theorem xingDetectReadsOffset36 : Obligations.XingDetectReadsOffset36 := by
  intro s inside written
  refine exec_of_done ((if_neg (Nat.not_lt.2 inside)).trans (withBytes_of_written written fun bs read => ?_))
  simp only [xingKind, matches_iff read xingTag rfl, matches_iff read infoTag rfl]
  rfl

/-- Settles O39: the three bytes read decode to the spec's record, for which there is room. -/
theorem mp3DecodePushesTheHeader : Obligations.Mp3DecodePushesTheHeader := by
  intro s inside written room
  refine exec_of_done ((if_neg (Nat.not_lt.2 inside)).trans ?_)
  refine withBytes_of_written (written.part (Nat.le_refl _) (by omega)) fun bs read => ?_
  rw [arg0Value, mpegRecord_eq read, mpegInvalid_eq read]
  exact pushOne_of_room (words := mpegWords s _ false) room (Nat.succ_pos 5) _

/-- Settles O46: the sync matches, and the three bytes read decode to the spec's record, which has a frame size and so
no invalid flag. -/
theorem mp3ScanPushesAndAdvances : Obligations.Mp3ScanPushesAndAdvances := by
  intro s inside written sync positive room
  refine exec_of_done ((if_pos inside).trans ?_)
  refine withBytes_of_written (written.part (Nat.le_refl _) (by omega)) fun bs readSync => ?_
  rw [if_pos ((mpegSyncMatch_iff readSync).2 sync)]
  refine withBytes_of_written (written.part (Nat.le_refl _) (by omega)) fun bs read => ?_
  rw [← mpegFrameSize_eq read (Nat.le_refl 3)] at positive ⊢
  obtain ⟨valid, _⟩ := (mpegFrameSize_pos_iff_valid _).1 positive
  rw [if_pos positive, valid, ← mpegRecord_eq read]
  exact pushHeader_of_room (record := mpegRecord _ (mpegDecode bs)) room (Nat.succ_pos 5) _ _ _

end Sys2Proof.Claims
end

section
/-! Little-endian assembly as the spec's sum (00_scope.md R11), and bytes packed four to a word (20_memory.md R74). -/

namespace Sys2Proof.Machine

/-- `pack_le` a word at a time: the first four bytes, fewer at the end, assembled little-endian. -/
theorem packLe_cons (b : Byte) (rest : List Byte) :
    packLe (b :: rest) = BitVec.ofNat 32 (le ((b :: rest).take 4)) :: packLe ((b :: rest).drop 4) := by
  match rest with
  | [] | [_] | [_, _] | _ :: _ :: _ :: _ =>
    refine congrArg (· :: _) (BitVec.toNat_eq_nat.1 ?_).2
    simp only [toNat_append_eq_add, BitVec.toNat_ofNat, List.take_succ_cons, List.take_nil, List.take_zero, le]
    omega

end Sys2Proof.Machine

namespace Sys2Proof.Claims

open Sys2Proof.Machine

variable {s : State} {a n : Nat} {bs : List Byte}

/-- `LE` without its first byte, which is the least significant. -/
theorem leSum_succ (s : State) (a n : Nat) : leSum s a (n + 1) = ibuf s a + 256 * leSum s (a + 1) n := by
  rw [leSum, leSum, List.range_succ_eq_map, List.map_cons, List.sum_cons, List.map_map, ← List.sum_map_mul_left]
  congr 1
  · simp
  · refine congrArg List.sum (List.map_congr_left fun i _ => ?_)
    rw [Function.comp_apply, Nat.succ_eq_add_one, Nat.add_right_comm a 1, ← Nat.add_assoc]
    ring

/-- The first of the bytes is the number at `a`, and the others are the numbers from `a + 1` on. -/
theorem numbers_cons {b : Byte} {rest : List Byte}
    (numbers : (b :: rest).map BitVec.toNat = (List.range (rest.length + 1)).map fun i => ibuf s (a + i)) :
    b.toNat = ibuf s a ∧ rest.map BitVec.toNat = (List.range rest.length).map fun i => ibuf s (a + 1 + i) := by
  simpa [List.range_succ_eq_map, Function.comp_def, Nat.add_assoc, Nat.add_comm 1] using numbers

/-- Bytes assembled little-endian are the spec's sum over the numbers they are. -/
theorem le_eq_leSum (numbers : bs.map BitVec.toNat = (List.range n).map fun i => ibuf s (a + i)) :
    le bs = leSum s a n := by
  have length : bs.length = n := by simpa using congrArg List.length numbers
  subst length
  induction bs generalizing a with
  | nil => rfl
  | cons b rest ih =>
    obtain ⟨first, others⟩ := numbers_cons numbers
    rw [le, List.length_cons, leSum_succ, ih others, first]

/-- A sum whose summands from `n` on are 0. -/
theorem sum_range_ite_lt (f : Nat → Nat) (m n : Nat) :
    ((List.range m).map fun k => if k < n then f k else 0).sum = ((List.range (min m n)).map f).sum := by
  induction m with
  | zero => rw [Nat.zero_min]; rfl
  | succ m ih =>
    rw [List.range_succ, List.map_append, List.sum_append, ih, List.map_singleton, List.sum_singleton]
    rcases Nat.lt_or_ge m n with inside | outside
    · rw [if_pos inside, Nat.min_eq_left inside, Nat.min_eq_left inside.le, List.range_succ, List.map_append,
        List.sum_append, List.map_singleton, List.sum_singleton]
    · rw [if_neg (Nat.not_lt.2 outside), Nat.min_eq_right outside, Nat.min_eq_right (Nat.le_succ_of_le outside),
        Nat.add_zero]

/-- The spec's packing a word at a time. -/
theorem packed_succ (s : State) (a n : Nat) :
    packed s a (n + 1) = BitVec.ofNat 32 (leSum s a (min 4 (n + 1))) :: packed s (a + 4) (n + 1 - 4) := by
  have words : (n + 1 + 3) / 4 = (n + 1 - 4 + 3) / 4 + 1 := by omega
  unfold packed
  rw [words, List.range_succ_eq_map (n := (n + 1 - 4 + 3) / 4), List.map_cons, List.map_map]
  congr 1
  · simp only [Nat.mul_zero, Nat.zero_add]
    rw [sum_range_ite_lt (fun k => ibuf s (a + k) * 2 ^ (8 * k)), leSum]
  · refine List.map_congr_left fun j _ => ?_
    have place (k : Nat) : 4 * (j + 1) + k < n + 1 ↔ 4 * j + k < n + 1 - 4 := by omega
    have byte (k : Nat) : a + (4 * (j + 1) + k) = a + 4 + (4 * j + k) := by omega
    simp only [Function.comp_apply, Nat.succ_eq_add_one, place, byte]

/-- Bytes packed are the spec's words of the numbers they are. -/
theorem packLe_eq_packed (numbers : bs.map BitVec.toNat = (List.range n).map fun i => ibuf s (a + i)) :
    packLe bs = packed s a n := by
  have length : bs.length = n := by simpa using congrArg List.length numbers
  induction n using Nat.strong_induction_on generalizing a bs with
  | _ n ih =>
    match bs, length with
    | [], rfl => rfl
    | b :: rest, rfl =>
      have firstFour : ((b :: rest).take 4).map BitVec.toNat =
          (List.range (min 4 (rest.length + 1))).map fun i => ibuf s (a + i) := by
        rw [List.map_take, numbers, ← List.map_take, List.take_range, List.length_cons]
      have others : ((b :: rest).drop 4).map BitVec.toNat =
          (List.range (rest.length + 1 - 4)).map fun i => ibuf s (a + 4 + i) := by
        rw [List.map_drop, numbers]
        apply List.ext_getElem <;> simp [Nat.add_assoc]
      rw [packLe_cons, List.length_cons, packed_succ, le_eq_leSum firstFour,
        ih _ (by simp) others (by simp)]

end Sys2Proof.Claims
end

section
/-! LAME_WINDOW: the window's record, and the window clipped at `L` (43_mp3.md R275, 30_encoding.md R114). -/

namespace Sys2Proof.Claims

open Sys2Proof.Machine

variable {s : State}

/-- The record of the bytes read at `a`; a window has 138 bytes at most, so LEN holds its words. -/
theorem lameRecord_eq {a n : Nat} {window : List Byte} (read : memRead s.ibuf a n = .ok window) (most : n ≤ 138) :
    lameRecord a window =
      [BitVec.ofNat 32 (0x04 + (2 + (n + 3) / 4) * 2 ^ 8), BitVec.ofNat 32 a] ++ packed s a n := by
  have header : recordHeader 0x04 (2 + (n + 3) / 4) 0 false = BitVec.ofNat 32 (0x04 + (2 + (n + 3) / 4) * 2 ^ 8) := by
    refine (BitVec.toNat_eq_nat.1 ?_).2
    simp only [recordHeader_toNat, BitVec.ofNat_eq_ofNat, BitVec.toNat_ofNat, Bool.toNat_false]
    omega
  rw [lameRecord, (memRead_ok.1 read).1, header, packLe_eq_packed (map_toNat_of_memRead read), word]

theorem lameCount_le (s : State) : lameCount s ≤ 138 := by
  unfold lameCount
  omega

/-- A window of which nothing lies below `L` is clipped. -/
theorem lameCode_of_empty (empty : lameCount s = 0) : lameCode s = .truncated := by
  unfold lameCount at empty
  exact if_pos (by omega)

/-- Settles O36: a nonempty window is read, and there is room for its record; an empty one is not pushed. -/
theorem lameWindowIsClipped : Obligations.LameWindowIsClipped := by
  rintro s _ n rfl count
  obtain rfl : n = lameCount s := count
  refine ⟨fun nonempty written room => exec_of_done ?_, fun empty => exec_of_done ?_⟩
  · refine (if_neg nonempty.ne').trans (withBytes_of_written written fun window read => ?_)
    refine pushOne_done.2 ⟨?_, ?_⟩
    · rw [lameRecord_length, (memRead_ok.1 read).1]
      exact Room.fits room (by omega)
    · rw [arg0Value, lameRecord_eq read (lameCount_le s), lameResults, lameCode, arg0Value]
      rfl
  · refine (if_pos empty).trans ?_
    rw [lameCode_of_empty empty, lameResults, empty]
    rfl

end Sys2Proof.Claims
end

section
/-! The ID3v2 tag that stands in written bytes, as the spec's own numbers (43_mp3.md R271 to R273). -/

namespace Sys2Proof.Machine

/-- A size byte's low 7 bits below the bits before it (43_mp3.md R271). -/
theorem unsync_step (acc : Nat) (b : Byte) : acc <<< 7 ||| (b.toNat &&& 0x7F) = acc * 2 ^ 7 + b.toNat % 128 := by
  have low : b.toNat &&& 0x7F = b.toNat % 128 := Nat.and_two_pow_sub_one_eq_mod _ 7
  rw [low, ← Nat.shiftLeft_add_eq_or_of_lt (Nat.mod_lt _ (by decide)), Nat.shiftLeft_eq]

theorem id3Footer_toNat : ∀ flags : Byte, (id3Footer flags).toNat = flags.toNat / 16 % 2 := by decide

/-- RES2 as a number, each field at its weight (43_mp3.md R273). -/
theorem id3FlagsWord_eq (beyond footer : Bool) (minor major flags : Byte) :
    0#6 ++ bit beyond ++ bit footer ++ minor ++ major ++ flags =
      BitVec.ofNat 32 (flags.toNat + major.toNat * 2 ^ 8 + minor.toNat * 2 ^ 16 + footer.toNat * 2 ^ 24
        + beyond.toNat * 2 ^ 25) := by
  refine (BitVec.toNat_eq_nat.1 ?_).2
  simp only [toNat_append_eq_add, toNat_bit, BitVec.toNat_ofNat]
  omega

end Sys2Proof.Machine

namespace Sys2Proof.Claims

open Sys2Proof.Machine

variable {s : State} {a : Nat}

/-- A whole byte as a field. -/
theorem field_byte_toNat {n i : Nat} {bs : List Byte} (read : memRead s.ibuf a n = .ok bs) (inside : i < n) :
    (field bs i 1 8 0).toNat = ibuf s (a + i) := by
  rw [field_one_toNat read inside, Nat.pow_zero, Nat.div_one]
  exact Nat.mod_eq_of_lt (ibuf_lt s (a + i))

theorem unsync_eq_unsyncSum {size : List Byte} (read : memRead s.ibuf a 4 = .ok size) :
    unsync size = unsyncSum s a := by
  have numbers : size.map BitVec.toNat = [ibuf s a, ibuf s (a + 1), ibuf s (a + 2), ibuf s (a + 3)] :=
    map_toNat_of_memRead read
  simp only [List.map_eq_cons_iff, List.map_eq_nil_iff] at numbers
  obtain ⟨b₀, _, rfl, h₀, b₁, _, rfl, h₁, b₂, _, rfl, h₂, b₃, _, rfl, h₃, rfl⟩ := numbers
  simp only [unsync, List.foldl_cons, List.foldl_nil, unsync_step, h₀, h₁, h₂, h₃, unsyncSum]
  omega

section
variable {front size : List Byte} {flags : Byte} (readFront : memRead s.ibuf a 5 = .ok front)
  (readFlags : byteAt s.ibuf (a + 5) = some flags) (readSize : memRead s.ibuf (a + 6) 4 = .ok size)

include readFlags readSize in
theorem id3TagSize_eq : id3TagSize flags size = tagSize s a := by
  rw [id3TagSize, tagSize, unsync_eq_unsyncSum readSize, ibuf_of_byteAt readFlags, ← id3Footer_toNat]
  simp only [Bool.toNat_eq_one]

include readFront readFlags readSize in
theorem id3Results_eq (r : Results) :
    id3Results a (len s) front flags size r =
      { r with
        r0 := BitVec.ofNat 32 a
        r1 := BitVec.ofNat 32 (tagSize s a)
        r2 := BitVec.ofNat 32 (ibuf s (a + 5) + ibuf s (a + 3) * 2 ^ 8 + ibuf s (a + 4) * 2 ^ 16
          + ibuf s (a + 5) / 16 % 2 * 2 ^ 24 + flag (len s < a + tagSize s a) * 2 ^ 25)
        r3 := BitVec.ofNat 32 (unsyncSum s (a + 6)) } := by
  have beyond : flag (len s < a + tagSize s a) = (decide (len s < a + tagSize s a)).toNat :=
    flag_eq_toNat decide_eq_true_iff
  rw [id3Results, id3FlagsWord_eq, id3TagSize_eq readFlags readSize, unsync_eq_unsyncSum readSize,
    field_byte_toNat readFront (by decide), field_byte_toNat readFront (by decide), ibuf_of_byteAt readFlags,
    id3Footer_toNat, beyond]
  rfl

end

/-- Settles O48: the pattern of the bytes read matches, and they are the spec's numbers. -/
theorem id3FindReportsTheTag : Obligations.Id3FindReportsTheTag := by
  rintro s _ rfl inside written tag
  obtain ⟨flags, readFlags⟩ := exists_byteAt written (Nat.le_add_right _ 5) (by omega)
  refine exec_of_done ((if_pos inside).trans ?_)
  refine withBytes_of_written (written.part (Nat.le_refl _) (by omega)) fun front readFront => ?_
  refine withBytes_of_written (written.part (by omega) (by omega)) fun size readSize => ?_
  rw [if_pos ((id3Match_iff readFront readSize).2 tag), withByte_eq readFlags]
  have results := id3Results_eq readFront readFlags readSize s.res
  rw [bufferLength, results, BitVec.ofNat_toNat, BitVec.setWidth_eq]
  rfl

end Sys2Proof.Claims
end

section
/-! The words of an Ogg record as numbers, each field at its weight (30_encoding.md R113, 44_ogg.md R314). -/

namespace Sys2Proof.Machine

/-- Word 0: a page has 255 segments at most, so LEN holds the record's words. -/
theorem oggFlagsWord_eq (segments headerType : Byte) (bodyTrunc inc : Bool) :
    recordHeader 0x03 (9 + (segments.toNat + 3) / 4) (0#11 ++ bit bodyTrunc ++ headerType.extractLsb' 0 3) inc =
      BitVec.ofNat 32 (0x03 + (9 + (segments.toNat + 3) / 4) * 2 ^ 8 + headerType.toNat % 8 * 2 ^ 16
        + bodyTrunc.toNat * 2 ^ 19 + inc.toNat * 2 ^ 31) := by
  have most := segments.isLt
  refine (BitVec.toNat_eq_nat.1 ?_).2
  simp only [recordHeader_toNat, toNat_append_eq_add, toNat_bit, BitVec.extractLsb'_toNat, Nat.shiftRight_zero,
    BitVec.ofNat_eq_ofNat, BitVec.toNat_ofNat]
  omega

theorem oggCountWord_eq (segments headerType : Byte) :
    0#16 ++ headerType ++ segments = BitVec.ofNat 32 (segments.toNat + headerType.toNat * 2 ^ 8) := by
  refine (BitVec.toNat_eq_nat.1 ?_).2
  simp only [toNat_append_eq_add, BitVec.toNat_ofNat]
  omega

/-- The low half of a 64-bit position. -/
theorem extractLsb'_low_eq (x : BitVec 64) : x.extractLsb' 0 32 = BitVec.ofNat 32 (x.toNat % 2 ^ 32) := by
  refine (BitVec.toNat_eq_nat.1 ?_).2
  rw [BitVec.extractLsb'_toNat, Nat.shiftRight_zero]

/-- The high half of a 64-bit position. -/
theorem extractLsb'_high_eq (x : BitVec 64) : x.extractLsb' 32 32 = BitVec.ofNat 32 (x.toNat / 2 ^ 32) := by
  rw [BitVec.extractLsb', Nat.shiftRight_eq_div_pow]

end Sys2Proof.Machine
end

section
/-! The Ogg page that stands in written bytes, as the spec's own numbers (44_ogg.md R311 to R314). -/

namespace Sys2Proof.Claims

open Sys2Proof.Machine

variable {s : State} {a n : Nat} {bs : List Byte} {p : OggPage}

/-- Part of the bytes read, as the numbers that stand there. -/
theorem map_toNat_slice (read : memRead s.ibuf a n = .ok bs) {first m : Nat} (inside : first + m ≤ n) :
    (slice bs first m).map BitVec.toNat = (List.range m).map fun i => ibuf s (a + first + i) := by
  rw [slice, List.map_take, List.map_drop, map_toNat_of_memRead read]
  apply List.ext_getElem
  · simp
    omega
  · simp [Nat.add_assoc]

/-- A little-endian field of those read (20_memory.md R73). -/
theorem leField_toNat (read : memRead s.ibuf a n = .ok bs) {first m : Nat} (inside : first + m ≤ n) :
    (leField bs first m).toNat = leSum s (a + first) m := by
  have numbers := map_toNat_slice read inside
  have length : (slice bs first m).length = m := by simpa using congrArg List.length numbers
  have fits : le (slice bs first m) < 2 ^ (8 * m) := by
    have bound := le_lt (slice bs first m)
    rwa [length, show 256 = 2 ^ 8 from rfl, ← Nat.pow_mul] at bound
  rw [leField, BitVec.toNat_ofNat, Nat.mod_eq_of_lt fits, le_eq_leSum numbers]

theorem leSum_one (s : State) (a : Nat) : leSum s a 1 = ibuf s a := by
  simp [leSum]

/-- The page's fields are the numbers that stand at `a` (44_ogg.md R311). -/
structure StandsAt (p : OggPage) (s : State) (a : Nat) : Prop where
  headerType : p.headerType.toNat = ibuf s (a + 5)
  absolutePosition : p.absolutePosition.toNat = leSum s (a + 6) 8
  streamSerial : p.streamSerial.toNat = leSum s (a + 14) 4
  number : p.pageNum.toNat = pageNum s a
  checksum : p.checksum.toNat = leSum s (a + 22) 4
  count : p.segments.toNat = segments s a
  lacing : p.segmentSizeTable.map BitVec.toNat = (List.range (segments s a)).map fun k => ibuf s (a + 27 + k)

/-- The bytes read of a page are decoded to it (R311). -/
theorem oggDecode_standsAt {fixed table : List Byte} (fields : memRead s.ibuf (a + 5) 22 = .ok fixed)
    (lacing : memRead s.ibuf (a + 27) (segments s a) = .ok table) : StandsAt (oggDecode fixed table) s a where
  headerType := (leField_toNat fields (first := 0) (m := 1) (by decide)).trans (leSum_one s (a + 5))
  absolutePosition := leField_toNat fields (first := 1) (m := 8) (by decide)
  streamSerial := leField_toNat fields (first := 9) (m := 4) (by decide)
  number := leField_toNat fields (first := 13) (m := 4) (by decide)
  checksum := leField_toNat fields (first := 17) (m := 4) (by decide)
  count := (leField_toNat fields (first := 21) (m := 1) (by decide)).trans (leSum_one s (a + 26))
  lacing := map_toNat_of_memRead lacing

/-- Decoding a page that is written, its fixed part and segment table below `L`, goes on with that page (R312). -/
theorem withPage_standsAt (written : Written s a (27 + segments s a)) (inside : a + 27 + segments s a ≤ len s) :
    ∃ p, StandsAt p s a ∧ ∀ page cut, withPage s a page cut = page p := by
  obtain ⟨seg, count⟩ := exists_byteAt written (Nat.le_add_right a 26) (by omega)
  obtain ⟨fixed, fields⟩ := memRead_of_written (written.part (m := 22) (Nat.le_add_right a 5) (by omega))
  obtain ⟨table, lacing⟩ := memRead_of_written (written.part (m := segments s a) (Nat.le_add_right a 27) (by omega))
  have segs : segments s a = seg.toNat := ibuf_of_byteAt count
  refine ⟨oggDecode fixed table, oggDecode_standsAt fields lacing, ?_⟩
  rw [segs] at inside lacing
  exact withPage_of_whole count inside fields lacing

section
variable (stands : StandsAt p s a)
include stands

theorem oggPageSize_eq : oggPageSize p = pageSize s a := by
  rw [oggPageSize, stands.count, stands.lacing, pageSize]

theorem oggBodyTrunc_eq : oggBodyTrunc (len s) a p = decide (len s < a + pageSize s a) := by
  rw [oggBodyTrunc, oggPageSize_eq stands]

theorem oggRecord_eq (inc : Bool) : oggRecord (len s) a p inc = oggWords s a inc := by
  have serial : p.streamSerial = BitVec.ofNat 32 (leSum s (a + 14) 4) := (BitVec.toNat_eq_nat.1 stands.streamSerial).2
  have number : p.pageNum = BitVec.ofNat 32 (pageNum s a) := (BitVec.toNat_eq_nat.1 stands.number).2
  have checksum : p.checksum = BitVec.ofNat 32 (leSum s (a + 22) 4) := (BitVec.toNat_eq_nat.1 stands.checksum).2
  have beyond : flag (len s < a + pageSize s a) = (oggBodyTrunc (len s) a p).toNat :=
    flag_eq_toNat (by rw [oggBodyTrunc_eq stands, decide_eq_true_iff])
  rw [oggRecord, oggFlagsWord_eq, oggCountWord_eq, extractLsb'_low_eq, extractLsb'_high_eq, serial, number, checksum,
    packLe_eq_packed stands.lacing, stands.headerType, stands.absolutePosition, stands.count, oggPageSize_eq stands,
    oggWords, beyond, flag_eq_toNat (b := inc) Iff.rfl, word, word]

end

theorem oggWords_length (s : State) (a : Nat) (inc : Bool) :
    (oggWords s a inc).length = 9 + (segments s a + 3) / 4 := by
  simp only [oggWords, packed, List.length_append, List.length_cons, List.length_nil, List.length_map,
    List.length_range]

end Sys2Proof.Claims
end

section
/-! The page-sequence check of a scan, in the spec's arithmetic (44_ogg.md R317, R319). -/

namespace Sys2Proof.Machine

/-- A scan's push of a page: the push of any header, then the sequence check (R317). -/
theorem pushHeader_seqCheck {s t : State} {record : Bool → List Word} {bad : Bool} {size advance : Nat}
    (pushed : pushHeader s record bad size advance id = .done t) (number : Word) :
    pushHeader s record bad size advance (seqCheck number) = .done (seqCheck number t) := by
  obtain ⟨fits, rfl⟩ := pushHeader_done.1 pushed
  exact pushHeader_done.2 ⟨fits, rfl⟩

/-- What the check of a page number leaves (R319); `broken` where the first missing number is found. -/
theorem seqCheck_eq (s : State) {number : Word} {n : Nat} (value : number.toNat = n) {broken : Bool}
    (breaks : broken = decide (s.havePage = true ∧ s.missingValid = false ∧ n ≠ (s.prevPn.toNat + 1) % 2 ^ 32)) :
    seqCheck number s =
      { s with
        monoOk := if s.havePage = true ∧ n ≤ s.prevPn.toNat then false else s.monoOk
        missingValid := if broken then true else s.missingValid
        oggMissing := if broken then s.prevPn + 1 else s.oggMissing
        havePage := true
        prevPn := BitVec.ofNat 32 n } := by
  subst value
  have next : (number != s.prevPn + 1) = decide (number.toNat ≠ (s.prevPn.toNat + 1) % 2 ^ 32) := by
    rw [Bool.eq_iff_iff, bne_iff_ne, decide_eq_true_iff, Ne, ← BitVec.toNat_inj, BitVec.toNat_add]
    rfl
  have falls : number.ule s.prevPn = decide (number.toNat ≤ s.prevPn.toNat) := rfl
  have gap : broken = (s.havePage && !s.missingValid && number != s.prevPn + 1) := by
    rw [next, breaks]
    simp [Bool.and_assoc]
  rw [seqCheck, ← gap, falls, Bool.cond_eq_ite, BitVec.ofNat_toNat, BitVec.setWidth_eq]
  congr 1
  · cases s.havePage <;> simp [Bool.and_comm]
  · rw [gap, next]
    cases s.missingValid <;> simp

end Sys2Proof.Machine
end

section
/-! The tests of a magic, and the Ogg commands on a page (44_ogg.md R315 to R318, 45_opus.md R344). -/

namespace Sys2Proof.Claims

open Sys2Proof.Machine

/-- Settles O33: the five and the eight bytes read are the magic exactly where the numbers are. -/
theorem magicTestsCompareEveryByte : Obligations.MagicTestsCompareEveryByte := by
  refine ⟨fun s inside written => exec_of_done ?_, fun s inside written => exec_of_done ?_⟩
  · refine (if_neg (Nat.not_lt.2 inside)).trans (withBytes_of_written written fun bs read => ?_)
    simp only [oggMatch_iff read]
    rfl
  · refine (if_neg (Nat.not_lt.2 inside)).trans (withBytes_of_written written fun bs read => ?_)
    simp only [matches_iff read opusTagsMagic rfl]
    rfl

/-- Settles O40: the bytes read decode to the page that stands there, and there is room for its record. -/
theorem oggDecodePushesThePage : Obligations.OggDecodePushesThePage := by
  intro s inside written room
  obtain ⟨p, stands, decodes⟩ := withPage_standsAt written inside
  refine exec_of_done (show oggDecodeBody s = _ from ?_)
  rw [oggDecodeBody, arg0Value, decodes, bufferLength, oggRecord_eq stands, oggBodyTrunc_eq stands]
  rw [← oggWords_length s _ false] at room
  exact pushOne_of_room room (Nat.succ_pos _) _

/-- Settles O47: the magic matches, the bytes read decode to the page that stands there, there is room for its record,
and its number is checked against the last one. -/
theorem oggScanPushesChecksAndAdvances : Obligations.OggScanPushesChecksAndAdvances := by
  intro s broken _ inside written magic room breaks
  have loops : s.off.toNat + 5 ≤ bufferLength s := Nat.le_trans (by omega) inside
  obtain ⟨p, stands, decodes⟩ := withPage_standsAt written inside
  refine exec_of_done ((if_pos loops).trans ?_)
  refine withBytes_of_written (written.part (Nat.le_refl _) (by omega)) fun bs read => ?_
  rw [if_pos ((oggMatch_iff read).2 magic), decodes, bufferLength, oggBodyTrunc_eq stands, oggAdvance,
    oggPageSize_eq stands]
  rw [← oggWords_length s _ (isIncomplete s), ← oggRecord_eq stands] at room
  rw [pushHeader_seqCheck (pushHeader_of_room room (Nat.succ_pos _) _ _ _), oggRecord_eq stands]
  exact congrArg StepResult.done (seqCheck_eq (scanned s _ _ _ _) stands.number breaks)

end Sys2Proof.Claims
end

section
/-! The TOC byte's fields as the spec's own numbers, and its word, each field at its weight (45_opus.md R345 to R351),
and TOC_DECODE. -/

namespace Sys2Proof.Machine

/-- A field below zeros is the word of its number. -/
theorem zero_append_eq {m n : Nat} (x : BitVec n) : 0#m ++ x = BitVec.ofNat (m + n) x.toNat := by
  refine (BitVec.toNat_eq_nat.1 ?_).2
  rw [toNat_append_eq_add, BitVec.toNat_ofNat, Nat.zero_mod, Nat.zero_mul, Nat.zero_add]

/-- A field of a single byte as a number (41_bitfield.md R203). -/
theorem byteField_toNat (b : Byte) (w shift : Nat) : (byteField b w shift).toNat = b.toNat / 2 ^ shift % 2 ^ w := by
  rw [byteField, BitVec.toNat_ofNat, extract_eq, Nat.mod_mod]

theorem tocConfig_toNat (t : Byte) : (tocConfig t).toNat = t.toNat / 8 := by
  have byte := t.isLt
  rw [tocConfig, byteField_toNat]
  omega

theorem tocStereo_toNat (t : Byte) : (tocStereo t).toNat = t.toNat / 4 % 2 := byteField_toNat t 1 2

theorem tocCode_toNat (t : Byte) : (tocCode t).toNat = t.toNat % 4 := by
  rw [tocCode, byteField_toNat, Nat.pow_zero, Nat.div_one]
  rfl

theorem tocChannels_eq (t : Byte) : tocChannels t = if t.toNat / 4 % 2 = 1 then 2 else 1 := by
  have flagged : tocStereo t = 1 ↔ t.toNat / 4 % 2 = 1 := by
    rw [← tocStereo_toNat, ← BitVec.toNat_inj]
    rfl
  simp only [tocChannels, flagged]

end Sys2Proof.Machine

namespace Sys2Proof.Claims

open Sys2Proof.Machine

/-- The model's modes, bandwidths and durations are the spec's table, in every row (10_state.md R43). -/
theorem toc_table : ∀ config : BitVec 5,
    (tocMode config.toNat).code.toNat = modeCode config.toNat ∧
      (tocBandwidth config.toNat).code.toNat = bandwidthCode config.toNat ∧
      (BitVec.ofNat 8 (tocDuration config.toNat)).toNat = durationHalves config.toNat := by decide

theorem tocWord_eq (t : Byte) : tocWord t = BitVec.ofNat 32 (tocSum t.toNat) := by
  obtain ⟨mode, bandwidth, duration⟩ := toc_table (tocConfig t)
  rw [tocConfig_toNat] at mode bandwidth duration
  refine (BitVec.toNat_eq_nat.1 ?_).2
  simp only [tocWord, tocSum, toNat_append_eq_add, tocCode_toNat, tocChannels_eq, tocStereo_toNat,
    tocConfig_toNat, mode, bandwidth, duration, BitVec.toNat_ofNat]
  split <;> omega

/-- Settles O37: the TOC word is the spec's sum for every byte, and ARG0[7:0] is ARG0 modulo 2^8. -/
theorem tocDecodeIsTotal : Obligations.TocDecodeIsTotal := by
  intro s
  have byte : (arg0Byte s).toNat = s.arg0.toNat % 2 ^ 8 := by
    rw [arg0Byte, BitVec.extractLsb'_toNat, Nat.shiftRight_zero]
  refine exec_of_done (show tocDecodeBody s = _ from ?_)
  rw [tocDecodeBody, tocWord_eq, zero_append_eq, byte]
  rfl

end Sys2Proof.Claims
end

section
/-! The Opus identification header that stands in written bytes, as the spec's own numbers, and the embedded TOC byte
(45_opus.md R341 to R343). -/

namespace Sys2Proof.Machine

/-- A 16-bit number sign-extended: its upper half moves to the upper end of the 32-bit range (00_scope.md R11). -/
theorem signExtend_eq_ofNat (x : BitVec 16) :
    x.signExtend 32 = BitVec.ofNat 32 (if x.toNat < 2 ^ 15 then x.toNat else x.toNat + (2 ^ 32 - 2 ^ 16)) := by
  have bound := x.isLt
  have sign : x.msb = decide (2 ^ 15 ≤ x.toNat) := BitVec.msb_eq_decide x
  refine (BitVec.toNat_eq_nat.1 ?_).2
  rw [BitVec.toNat_signExtend, BitVec.toNat_setWidth, sign]
  simp only [decide_eq_true_eq]
  split <;> split <;> omega

/-- RES2 as a number, each field at its weight (45_opus.md R342). -/
theorem opusFieldsWord_eq (mapping channels version : Byte) :
    0#8 ++ mapping ++ channels ++ version =
      BitVec.ofNat 32 (version.toNat + channels.toNat * 2 ^ 8 + mapping.toNat * 2 ^ 16) := by
  refine (BitVec.toNat_eq_nat.1 ?_).2
  simp only [toNat_append_eq_add, BitVec.toNat_ofNat]
  omega

/-- RES7 as a number (45_opus.md R343). -/
theorem tocByteWord_eq (t : Byte) : 0#16 ++ t ++ 1#8 = BitVec.ofNat 32 (1 + t.toNat * 2 ^ 8) := by
  refine (BitVec.toNat_eq_nat.1 ?_).2
  simp only [toNat_append_eq_add, BitVec.toNat_ofNat]
  omega

end Sys2Proof.Machine

namespace Sys2Proof.Claims

open Sys2Proof.Machine

variable {s : State} {a : Nat}

/-- The header's fields, read from its bytes `a+8 .. a+18` (R341, R342). -/
theorem opusHeadResults_eq {bs : List Byte} (read : memRead s.ibuf (a + 8) 11 = .ok bs) (r : Results) :
    opusHeadResults a bs r =
      { r with
        r0 := 1
        r1 := BitVec.ofNat 32 a
        r2 := BitVec.ofNat 32 (ibuf s (a + 8) + ibuf s (a + 9) * 2 ^ 8 + ibuf s (a + 18) * 2 ^ 16)
        r3 := BitVec.ofNat 32 (leSum s (a + 10) 2)
        r4 := BitVec.ofNat 32 (leSum s (a + 12) 4)
        r5 := BitVec.ofNat 32 (if leSum s (a + 16) 2 < 2 ^ 15 then leSum s (a + 16) 2
          else leSum s (a + 16) 2 + (2 ^ 32 - 2 ^ 16)) } := by
  have byte {i : Nat} (inside : i + 1 ≤ 11) : (leField bs i 1).toNat = ibuf s (a + 8 + i) :=
    (leField_toNat read inside).trans (leSum_one s _)
  have preSkip : (leField bs 2 2).toNat = leSum s (a + 10) 2 := leField_toNat read (by decide)
  have rate : leField bs 4 4 = BitVec.ofNat 32 (leSum s (a + 12) 4) :=
    (BitVec.toNat_eq_nat.1 (leField_toNat read (by decide))).2
  have gain : (leField bs 8 2).toNat = leSum s (a + 16) 2 := leField_toNat read (by decide)
  rw [opusHeadResults, opusFieldsWord_eq, zero_append_eq, signExtend_eq_ofNat, byte (by decide), byte (by decide),
    byte (by decide), preSkip, rate, gain]
  rfl

/-- The address of the embedded TOC byte, where OPUS_TOC_OFFSET puts it below `L` (R343). -/
abbrev tocAddress (s : State) (a : Nat) : Option Nat :=
  (s.params.opusTocOffset.filter fun d => decide (a + d < len s)).map fun d => a + d

theorem embeddedToc_of_none (absent : tocAddress s a = none) (r : Results) (k : Results → StepResult) :
    embeddedToc s a r k = k { r with r6 := 0, r7 := 0 } := by
  unfold embeddedToc
  cases offset : s.params.opusTocOffset with
  | none => rfl
  | some d =>
    have outside : len s ≤ a + d := by simpa [offset] using absent
    exact if_pos outside

theorem embeddedToc_of_some {x : Nat} (present : tocAddress s a = some x) (written : Written s x 1) (r : Results)
    (k : Results → StepResult) :
    embeddedToc s a r k =
      k { r with
        r6 := BitVec.ofNat 32 (tocSum (ibuf s x))
        r7 := BitVec.ofNat 32 (1 + ibuf s x * 2 ^ 8) } := by
  obtain ⟨d, kept, rfl⟩ := Option.map_eq_some_iff.1 present
  obtain ⟨offset, inside⟩ := Option.filter_eq_some_iff.1 kept
  have inside : ¬ bufferLength s ≤ a + d := Nat.not_le.2 (of_decide_eq_true inside)
  obtain ⟨t, byte⟩ := exists_byteAt written (Nat.le_refl _) (Nat.lt_succ_self _)
  simp only [embeddedToc, offset, if_neg inside]
  rw [withByte_eq byte, tocWord_eq, tocByteWord_eq, ibuf_of_byteAt byte]

/-- Settles O49: the magic matches, the bytes read are the spec's numbers, and by whether OPUS_TOC_OFFSET puts a byte
below `L` the embedded TOC byte is read or is none. -/
theorem opusHeadFindReportsTheHeader : Obligations.OpusHeadFindReportsTheHeader := by
  rintro s _ _ toc rfl inside written head rfl address tocWritten
  have loops : s.off.toNat + 8 ≤ bufferLength s := Nat.le_trans (by omega) inside
  refine exec_of_done ((if_pos loops).trans ?_)
  refine withBytes_of_written (written.part (Nat.le_refl _) (by omega)) fun magic readMagic => ?_
  refine (if_pos ((opusHead_iff readMagic).2 head)).trans ((if_pos inside).trans ?_)
  refine withBytes_of_written (written.part (by omega) (by omega)) fun bs read => ?_
  rw [opusHeadResults_eq read, BitVec.ofNat_toNat, BitVec.setWidth_eq]
  cases toc with
  | none =>
    rw [embeddedToc_of_none address.symm]
    rfl
  | some x =>
    rw [embeddedToc_of_some address.symm (tocWritten x rfl)]
    rfl

end Sys2Proof.Claims
end

section
/-! What one iteration of a scan or search moves: STEPS, OFF and the counters (40_engine.md R157, R159, R161 to
R163). -/

namespace Sys2Proof.Machine

/-- An iteration that does not end its command: it began below `L`, counted itself in STEPS, moved OFF on by at least 1
and at most an Ogg page, and moved each counter by at most 1, REC_COUNT and TRUNC_COUNT not both. -/
structure Iterated (s t : State) : Prop where
  inside : s.off.toNat < bufferLength s
  steps : t.steps = s.steps + 1
  off : ∃ advance, 1 ≤ advance ∧ advance ≤ 65307 ∧ t.off = word (s.off.toNat + advance)
  candidates : t.recCount.toNat + t.truncCount.toNat ≤ s.recCount.toNat + s.truncCount.toNat + 1
  invalid : t.invalidCount.toNat ≤ s.invalidCount.toNat + 1
  incomplete : (t.recCount = s.recCount ∧ t.incompleteCount = s.incompleteCount) ∨
    (t.recCount = s.recCount + 1 ∧ t.incompleteCount.toNat ≤ s.incompleteCount.toNat + 1)

theorem toNat_succ_le (w : Word) : (w + 1).toNat ≤ w.toNat + 1 := by
  rw [BitVec.toNat_add]
  exact Nat.mod_le _ _

/-- A counter that moves on only where a test holds. -/
theorem toNat_ite_succ_le (b : Bool) (w : Word) : (if b = true then w + 1 else w).toNat ≤ w.toNat + 1 := by
  split
  · exact toNat_succ_le w
  · exact Nat.le_succ _

/-- A pushed header counts in REC_COUNT, and in the other two counters where its flags say so (40_engine.md R162). -/
theorem Iterated.of_record {s t : State} {isIncomplete isInvalid : Bool} {advance : Nat}
    (inside : s.off.toNat < bufferLength s) (moves : 1 ≤ advance) (bound : advance ≤ 65307)
    (steps : t.steps = s.steps + 1) (off : t.off = word (s.off.toNat + advance))
    (recCount : t.recCount = s.recCount + 1) (truncCount : t.truncCount = s.truncCount)
    (invalidCount : t.invalidCount = if isInvalid then s.invalidCount + 1 else s.invalidCount)
    (incompleteCount : t.incompleteCount = if isIncomplete then s.incompleteCount + 1 else s.incompleteCount) :
    Iterated s t where
  inside := inside
  steps := steps
  off := ⟨advance, moves, bound, off⟩
  candidates := by
    have := toNat_succ_le s.recCount
    rw [recCount, truncCount]
    omega
  invalid := by
    rw [invalidCount]
    exact toNat_ite_succ_le _ _
  incomplete := .inr ⟨recCount, by rw [incompleteCount]; exact toNat_ite_succ_le _ _⟩

/-- Every engine step ends its command or is an iteration. -/
theorem StepEffect.idle_or_iterated {i : Instr} {s t : State} (h : StepEffect i s t)
    (adjust : s.params.oggAdvAdj ≤ 1) : t.phase = .idle ∨ Iterated s t := by
  cases h with
  | answered | cleared | recorded | ended | found => exact .inl rfl
  | skipped _ inside =>
    exact .inr ⟨inside, rfl, ⟨1, by omega, by omega, rfl⟩, Nat.le_succ _, Nat.le_succ _, .inl ⟨rfl, rfl⟩⟩
  | cut _ inside =>
    exact .inr ⟨inside, rfl, ⟨1, by omega, by omega, rfl⟩, Nat.add_le_add_left (toNat_succ_le s.truncCount) _,
      Nat.le_succ _, .inl ⟨rfl, rfl⟩⟩
  | rejected _ inside =>
    exact .inr ⟨inside, rfl, ⟨1, by omega, by omega, rfl⟩, Nat.le_succ _, toNat_succ_le s.invalidCount,
      .inl ⟨rfl, rfl⟩⟩
  | frame words isInvalid size advance _ inside _ _ moves bound =>
    exact .inr (.of_record (isInvalid := isInvalid) (isIncomplete := incomplete s s.off.toNat) inside moves bound
      (by simp) rfl (by simp) (by simp) (by simp) (by simp))
  | page words isInvalid size pageNum _ inside _ _ least bound =>
    exact .inr (.of_record (isInvalid := isInvalid) (isIncomplete := incomplete s s.off.toNat)
      (advance := size - s.params.oggAdvAdj) inside (by omega) (by omega)
      (by simp) rfl (by simp) (by simp) (by simp) (by simp))

end Sys2Proof.Machine

namespace Sys2Proof.Claims

open Sys2Proof.Machine

/-- The bounds that the progress invariant puts on a running scan or search (70_reset_and_hazards.md R472). -/
def WalkBounds (s : State) : Prop :=
  s.arg0.toNat + s.steps.toNat ≤ s.off.toNat ∧
    (s.steps = 0 ∨ s.arg0.toNat + s.steps.toNat ≤ len s) ∧
    (s.off = s.arg0 ∨ s.off.toNat < len s + 65307) ∧
    s.recCount.toNat + s.truncCount.toNat ≤ s.steps.toNat ∧
    s.invalidCount.toNat ≤ s.steps.toNat ∧
    s.incompleteCount.toNat ≤ s.recCount.toNat

/-- An iteration in a buffer of legal length keeps the bounds: nothing in it wraps, since STEPS and the counters are at
most OFF, which is below `L` (10_state.md R47). -/
theorem WalkBounds.of_iterated {s t : State} (bounds : WalkBounds s) (iterated : Iterated s t)
    (arg0 : t.arg0 = s.arg0) (bufLen : t.bufLen = s.bufLen) (short : len s ≤ 2 ^ 31) : WalkBounds t := by
  obtain ⟨walked, _, _, candidates, invalid, incomplete⟩ := bounds
  obtain ⟨inside, steps, ⟨advance, moves, bound, off⟩, moreCandidates, moreInvalid, moreIncomplete⟩ := iterated
  have inside : s.off.toNat < len s := inside
  have stepsNat : t.steps.toNat = s.steps.toNat + 1 := by rw [steps]; bv_omega
  have offNat : t.off.toNat = s.off.toNat + advance := by
    rw [off, word, BitVec.toNat_ofNat, Nat.mod_eq_of_lt (by omega)]
  have lenEq : len t = len s := congrArg BitVec.toNat bufLen
  have incompleteNat : t.incompleteCount.toNat ≤ t.recCount.toNat := by
    rcases moreIncomplete with ⟨recCount, incompleteCount⟩ | ⟨recCount, incompleteCount⟩
    · rwa [recCount, incompleteCount]
    · have : t.recCount.toNat = s.recCount.toNat + 1 := by rw [recCount]; bv_omega
      omega
  rw [WalkBounds, arg0, lenEq]
  exact ⟨by omega, .inr (by omega), .inr (by omega), by omega, by omega, incompleteNat⟩

theorem ProgressInv.of_idle {t : State} (idle : t.phase = .idle) : ProgressInv t :=
  fun busy => Phase.noConfusion (idle.symm.trans busy)

/-- Acceptance establishes the invariant: OFF is ARG0, and STEPS and the counters are 0 (40_engine.md R151). -/
theorem ProgressInv.startEngine (v : Word) (s : State) : ProgressInv (startEngine v (latchCommand v s)) :=
  fun _ => ⟨fun _ _ _ => ⟨rfl, rfl, rfl⟩,
    fun _ _ _ => ⟨Nat.le_refl _, .inl rfl, .inl rfl, Nat.le_refl _, Nat.le_refl _, Nat.le_refl _⟩⟩

/-- Every register write keeps the invariant: while BUSY only a reset touches what it speaks of. -/
theorem ProgressInv.of_writeEffect {v : Word} {s t : State} (inv : ProgressInv s) (effect : WriteEffect v s t) :
    ProgressInv t := by
  cases effect with
  | softReset | illegal | range => exact .of_idle rfl
  | bufLen idle | arg0 idle | arg1 idle => exact .of_idle idle
  | started => exact .startEngine v s
  | ignored | interruptEnable | statusCleared | rejected => exact inv

theorem ProgressInv.popped {s : State} (inv : ProgressInv s) : ProgressInv (popOutData s) := by
  unfold popOutData
  split <;> exact inv

theorem readsBuf_of_isWalk {i : Instr} (walk : isWalk i = true) : readsBuf i = true := by
  revert walk
  cases i <;> decide

/-- The ranges of the parameters, part by part (00_scope.md R7). -/
theorem wellFormed_iff {p : Params} :
    p.wellFormed = true ↔ 1 ≤ p.ibufCap ∧ p.ibufCap ≤ 2 ^ 31 ∧ 73 ≤ p.outDepth ∧ p.oggAdvAdj ≤ 1 := by
  simp only [Params.wellFormed, Bool.and_eq_true, decide_eq_true_eq, and_assoc]

/-- While a command that reads IBUF is BUSY, `L` is at most IBUF_CAP (40_engine.md R154). -/
theorem LifecycleInv.len_le {i : Instr} {s : State} (life : LifecycleInv s) (busy : s.phase = .busy)
    (running : runningCommand s = some i) (reads : readsBuf i = true) : len s ≤ s.params.ibufCap := by
  obtain ⟨⟨j, _, runs, fits⟩, _⟩ := life busy
  obtain rfl : i = j := Option.some.inj (running.symm.trans runs)
  exact fits reads

/-- A step of the running command keeps the invariant: a one-shot ends, and a scan or search ends or iterates. -/
theorem ProgressInv.of_stepEffect {i : Instr} {s t : State} (storage : StorageInv s) (life : LifecycleInv s)
    (inv : ProgressInv s) (busy : s.phase = .busy) (running : runningCommand s = some i) (effect : StepEffect i s t) :
    ProgressInv t := by
  obtain ⟨_, cap, _, adjust⟩ := wellFormed_iff.1 storage.1
  intro stillBusy
  have kept := effect.hostSideKept
  have sameCommand : runningCommand t = some i := by rw [runningCommand, kept.op]; exact running
  have walk : isWalk i = true := by
    by_contra oneShot
    have ended := effect.finished_of_oneShot (Bool.eq_false_of_not_eq_true oneShot)
    exact Phase.noConfusion (ended.1.symm.trans stillBusy)
  refine ⟨fun j runs oneShot => ?_, fun j runs _ => ?_⟩
  · obtain rfl : i = j := Option.some.inj (sameCommand.symm.trans runs)
    exact absurd walk (by simp [oneShot])
  · have ⟨_, bounds⟩ := inv busy
    rcases effect.idle_or_iterated adjust with idle | iterated
    · exact Phase.noConfusion (idle.symm.trans stillBusy)
    · exact WalkBounds.of_iterated (bounds i running walk) iterated kept.arg0 kept.bufLen
        (Nat.le_trans (life.len_le busy running (readsBuf_of_isWalk walk)) cap)

/-- Every move keeps the invariant. -/
theorem ProgressInv.of_moveEffect {s t : State} (storage : StorageInv s) (life : LifecycleInv s) (inv : ProgressInv s)
    (h : MoveEffect s t) : ProgressInv t := by
  cases h with
  | unchanged => exact inv
  | ran i t busy running effect => exact inv.of_stepEffect storage life busy running effect
  | reset => exact .of_idle rfl
  | read r => exact inv
  | popped r =>
    have popped : ProgressInv (popOutData s) := inv.popped
    exact popped
  | wrote r v => exact inv.of_writeEffect (writeReg_effect r v s)
  | ibufByte a v inside => exact inv

/-- Settles O60, by cases on the move: the script is no part of the invariants, so all three hold in the state the move
starts from. -/
theorem stepKeepsProgressInv : Obligations.StepKeepsProgressInv := by
  intro s t storage life inv h
  rcases step_effect h with effect | ⟨rest, effect⟩
  · exact inv.of_moveEffect storage life effect
  · have storageStarted : StorageInv { s with script := rest } := storage
    have lifeStarted : LifecycleInv { s with script := rest } := life
    have started : ProgressInv { s with script := rest } := inv
    exact started.of_moveEffect storageStarted lifeStarted effect

end Sys2Proof.Claims
end

section
/-! What one step of a scan or search can answer, and how many steps it takes to its end (40_engine.md R155 to
R160; 70_reset_and_hazards.md R472). -/

namespace Sys2Proof.Machine

/-- How a scan or search ends. -/
abbrev EndsOkOrNotFound (t : State) : Prop := t.phase = .idle ∧ t.done = true ∧ (t.code = .ok ∨ t.code = .notFound)

/-- What a step of a scan or search taken in `s` can answer: it goes on or ends with OK or NOT_FOUND, and it is held
only where `full` says so. -/
def Answers (s : State) (full : Prop) : StepResult → Prop
  | .done t => t.phase = s.phase ∨ EndsOkOrNotFound t
  | .held => full
  | .fault _ => True

variable {s : State} {full : Prop}

theorem Answers.ite {p : Prop} [Decidable p] {a b : StepResult} (yes : p → Answers s full a)
    (no : ¬ p → Answers s full b) : Answers s full (if p then a else b) := by
  split
  · exact yes ‹_›
  · exact no ‹_›

theorem Answers.withBytes {a n : Nat} {k : List Byte → StepResult} (rest : ∀ bs, Answers s full (k bs)) :
    Answers s full (withBytes s a n k) := by
  unfold Machine.withBytes
  split
  · exact rest _
  · trivial

theorem Answers.withByte {a : Nat} {k : Byte → StepResult} (rest : ∀ b, Answers s full (k b)) :
    Answers s full (withByte s a k) := by
  unfold Machine.withByte
  split
  · exact rest _
  · trivial

/-- A page is decoded, or cut short, or an unwritten byte stops the step (44_ogg.md R312). -/
theorem Answers.withPage {off : Nat} {page : OggPage → StepResult} {cut : StepResult}
    (whole : ∀ p, p.segmentSizeTable.length = p.segments.toNat → Answers s full (page p))
    (short : Answers s full cut) : Answers s full (withPage s off page cut) := by
  rcases withPage_cases s off with ⟨f, stops⟩ | isCut | ⟨p, lacing, isWhole⟩
  · rw [stops]
    trivial
  · rwa [isCut]
  · rw [isWhole]
    exact whole p lacing

theorem Answers.embeddedToc {off : Nat} {r : Results} {k : Results → StepResult}
    (rest : ∀ r', Answers s full (k r')) : Answers s full (embeddedToc s off r k) := by
  unfold Machine.embeddedToc
  split
  · exact rest _
  · exact .ite (fun _ => rest _) fun _ => .withByte fun _ => rest _

/-- A header is pushed and the scan goes on, or the FIFO has no room for the largest record (40_engine.md R160). -/
theorem Answers.pushHeader {record : Bool → List Word} {invalid : Bool} {size advance : Nat} {after : State → State}
    (shape : ∀ inc, RecordShape (record inc) inc) (goesOn : ∀ t, (after t).phase = t.phase) :
    Answers s (¬ RoomForRecord s) (pushHeader s record invalid size advance after) := by
  unfold Machine.pushHeader push
  split
  · exact .inl (goesOn _)
  · rename_i noRoom
    exact fun room => noRoom (room.fits (shape _))

theorem Answers.mono {full' : Prop} {r : StepResult} (answers : Answers s full r) (weaker : full → full') :
    Answers s full' r := by
  cases r with
  | held => exact weaker answers
  | done t => exact answers
  | fault f => trivial

/-- A scan's step is held only by an iteration, which starts below `L`. -/
theorem Answers.scan {loops : Prop} [Decidable loops] {iteration : StepResult}
    (inside : loops → s.off.toNat < bufferLength s) (answers : Answers s (¬ RoomForRecord s) iteration) :
    Answers s (s.off.toNat < bufferLength s ∧ ¬ RoomForRecord s)
      (if loops then iteration else .done (finish (scanCode s) s)) := by
  refine .ite (fun holds => answers.mono fun noRoom => ⟨inside holds, noRoom⟩) fun _ => .inr ⟨rfl, rfl, ?_⟩
  rw [finish_code, scanCode]
  split
  · exact .inr rfl
  · exact .inl rfl

theorem adtsScanBody_answers : Answers s (s.off.toNat < bufferLength s ∧ ¬ RoomForRecord s) (adtsScanBody s) := by
  refine .scan (by omega) (.withBytes fun _ => .ite (fun _ => .ite (fun _ => ?_) fun _ => .inl rfl) fun _ => .inl rfl)
  exact .withBytes fun _ => .pushHeader (adtsRecord_shape _ _) fun _ => rfl

theorem mp3ScanBody_answers : Answers s (s.off.toNat < bufferLength s ∧ ¬ RoomForRecord s) (mp3ScanBody s) := by
  refine .scan (by omega) (.withBytes fun _ => .ite (fun _ => .withBytes fun _ => ?_) fun _ => .inl rfl)
  exact .ite (fun _ => .pushHeader (mpegRecord_shape _ _) fun _ => rfl) fun _ => .inl rfl

theorem oggScanBody_answers : Answers s (s.off.toNat < bufferLength s ∧ ¬ RoomForRecord s) (oggScanBody s) := by
  refine .scan (by omega) (.withBytes fun _ => .ite (fun _ => ?_) fun _ => .inl rfl)
  refine .withPage (fun p lacing => ?_) (.inl rfl)
  exact .pushHeader (oggRecord_shape _ _ p lacing) fun _ => rfl

theorem id3FindBody_answers : Answers s False (id3FindBody s) := by
  refine .ite (fun _ => .withBytes fun _ => .withBytes fun _ => .ite (fun _ => ?_) fun _ => .inl rfl) fun _ => ?_
  · exact .withByte fun _ => .inr ⟨rfl, rfl, .inl rfl⟩
  · exact .inr ⟨rfl, rfl, .inr rfl⟩

theorem opusheadFindBody_answers : Answers s False (opusheadFindBody s) := by
  refine .ite (fun _ => .withBytes fun _ => .ite (fun _ => .ite (fun _ => ?_) fun _ => .inl rfl) fun _ => .inl rfl)
    fun _ => .inr ⟨rfl, rfl, .inr rfl⟩
  exact .withBytes fun _ => .embeddedToc fun _ => .inr ⟨rfl, rfl, .inl rfl⟩

/-- An idle engine left alone stays as it is (60_exceptions.md R416). -/
theorem run_of_idle {s : State} (idle : s.phase = .idle) (noMoves : s.script = []) (k : Nat) :
    core.run k s = .next s := by
  induction k with
  | zero => rfl
  | succ k ih => rw [run_succ ((step_of_noMoves noMoves).trans (engineTurn_of_idle idle)), ih]

end Sys2Proof.Machine

namespace Sys2Proof.Claims

open Sys2Proof.Machine

/-- The command `i` runs on a buffer the host has filled, in a block whose parameters are in range, and only the engine
is left to move (70_reset_and_hazards.md R454, R472). -/
structure RunsAlone (i : Instr) (s : State) : Prop where
  ranges : s.params.wellFormed = true
  ready : BufferReady s
  busy : s.phase = .busy
  running : runningCommand s = some i
  noMoves : s.script = []

/-- What an effective step of the command leaves BUSY runs alone again. -/
theorem RunsAlone.of_stepEffect {i : Instr} {s t : State} (alone : RunsAlone i s) (effect : StepEffect i s t)
    (busy : t.phase = .busy) : RunsAlone i t := by
  have kept := effect.hostSideKept
  obtain ⟨ranges, ready, _, running, noMoves⟩ := alone
  refine ⟨by rwa [kept.params], ?_, busy, by rwa [runningCommand, kept.op], kept.script.trans noMoves⟩
  simpa only [BufferReady, Written, len, kept.params, kept.bufLen, kept.ibuf] using ready

/-- On a filled buffer no step faults: the bytes it reads lie below `L`, and all of those are written (20_memory.md R71,
R72). -/
theorem stepBody_ne_fault {i : Instr} {s : State} (ready : BufferReady s) (f : Fault) : stepBody i s ≠ .fault f := by
  obtain ⟨_, written⟩ := ready
  obtain ⟨a⟩ := f
  rw [Ne, (stepBody_reads i s).fault_iff, ← Ne, List.find?_eq_none.2]
  · exact Option.some_ne_none a |>.symm
  · exact fun x isRead => by simpa using written x (lt_of_mem_bytesRead isRead)

/-- On a filled buffer a step that the FIFO does not hold takes effect, and goes on or ends with OK or NOT_FOUND. -/
theorem RunsAlone.step_of_answers {i : Instr} {s : State} {full : Prop} (alone : RunsAlone i s)
    (answers : Answers s full (stepBody i s)) (room : ¬ full) :
    ∃ t, step s = .next t ∧ StepEffect i s t ∧ (t.phase = .busy ∨ EndsOkOrNotFound t) := by
  obtain ⟨_, ready, busy, running, noMoves⟩ := alone
  cases body : stepBody i s with
  | done t =>
    rw [body] at answers
    refine ⟨t, ?_, stepBody_effect body, answers.imp_left fun same => same.trans busy⟩
    exact (step_eq_exec busy running noMoves).trans (exec_of_done body)
  | held =>
    rw [body] at answers
    exact absurd answers room
  | fault f => exact absurd body (stepBody_ne_fault ready f)

/-- An effective step that leaves the engine BUSY began below `L` and moved OFF on (40_engine.md R167). -/
theorem RunsAlone.forward {i : Instr} {s t : State} (alone : RunsAlone i s) (effect : StepEffect i s t)
    (busy : t.phase = .busy) : s.off.toNat < len s ∧ s.off.toNat < t.off.toNat := by
  obtain ⟨_, cap, _, adjust⟩ := wellFormed_iff.1 alone.ranges
  obtain ⟨fits, _⟩ := alone.ready
  rcases effect.idle_or_iterated adjust with idle | ⟨inside, _, ⟨advance, moves, bound, off⟩, _⟩
  · exact Phase.noConfusion (idle.symm.trans busy)
  · have inside : s.off.toNat < len s := inside
    exact ⟨inside, off ▸ lt_word_add (by omega) moves bound⟩

/-- A command whose steps the FIFO never holds while `room` lasts, and whose iterations keep `room`, has ended after one
step more than there are offsets left (70_reset_and_hazards.md R472). -/
theorem RunsAlone.terminates {i : Instr} {full room : State → Prop}
    (answers : ∀ s, Answers s (full s) (stepBody i s)) (unheld : ∀ s, room s → ¬ full s)
    (keeps : ∀ s t, room s → StepEffect i s t → s.off.toNat < len s → s.off.toNat < t.off.toNat → room t)
    {k : Nat} {s : State} (alone : RunsAlone i s) (left : len s - s.off.toNat ≤ k) (hasRoom : room s) :
    ∃ t, core.run (k + 1) s = .next t ∧ EndsOkOrNotFound t := by
  induction k generalizing s with
  | zero =>
    obtain ⟨t, first, effect, busy | ended⟩ := alone.step_of_answers (answers s) (unheld s hasRoom)
    · have ⟨inside, _⟩ := alone.forward effect busy
      omega
    · exact ⟨t, run_succ first, ended⟩
  | succ k ih =>
    obtain ⟨t, first, effect, busy | ended⟩ := alone.step_of_answers (answers s) (unheld s hasRoom)
    · have ⟨inside, forward⟩ := alone.forward effect busy
      have sameLen : len t = len s := congrArg BitVec.toNat effect.hostSideKept.bufLen
      rw [run_succ first]
      exact ih (alone.of_stepEffect effect busy) (by omega) (keeps s t hasRoom effect inside forward)
    · rw [run_succ first, run_of_idle ended.1 (effect.hostSideKept.script.trans alone.noMoves)]
      exact ⟨t, rfl, ended⟩

/-- Settles O51: a search pushes nothing, so no step of it is held. -/
theorem searchesTerminate : Obligations.SearchesTerminate := by
  intro s i search ranges ready busy running noMoves
  have answers (s : State) : Answers s False (stepBody i s) := by
    rcases search with rfl | rfl
    · exact id3FindBody_answers
    · exact opusheadFindBody_answers
  exact RunsAlone.terminates (room := fun _ => True) answers (fun _ _ => id) (fun _ _ _ _ _ _ => trivial)
    ⟨ranges, ready, busy, running, noMoves⟩ (Nat.le_refl _) trivial

/-- The FIFO has room for one record of the largest size at every offset left (30_encoding.md R115). -/
abbrev RoomForScan (s : State) : Prop := Room s (73 * (len s - s.off.toNat))

/-- A step takes one record's room at most, and leaves an offset less to scan. -/
theorem RoomForScan.of_stepEffect {i : Instr} {s t : State} (notClear : i ≠ .fifoClear) (room : RoomForScan s)
    (effect : StepEffect i s t) (inside : s.off.toNat < len s) (forward : s.off.toNat < t.off.toNat) :
    RoomForScan t := by
  have kept := effect.hostSideKept
  have pushed : t.fifo.length ≤ s.fifo.length + 73 := by
    rcases effect.fifo_cases with same | ⟨clear, _⟩ | ⟨words, _, appended, ⟨_, most, _⟩, _⟩
    · rw [same]
      omega
    · exact absurd clear notClear
    · rw [appended, List.length_append]
      omega
  have sameLen : len t = len s := congrArg BitVec.toNat kept.bufLen
  rw [RoomForScan, Room, kept.params, sameLen]
  omega

/-- Settles O52: the room left for a record at every offset left is never used up, so no step is held. -/
theorem scansTerminate : Obligations.ScansTerminate := by
  intro s i scan ranges ready room busy running noMoves
  have answers (s : State) : Answers s (s.off.toNat < bufferLength s ∧ ¬ RoomForRecord s) (stepBody i s) := by
    rcases scan with rfl | rfl | rfl
    · exact adtsScanBody_answers
    · exact mp3ScanBody_answers
    · exact oggScanBody_answers
  have notClear : i ≠ .fifoClear := by rcases scan with rfl | rfl | rfl <;> decide
  refine RunsAlone.terminates (room := RoomForScan) answers (fun s room ⟨inside, noRoom⟩ => noRoom ?_)
    (fun _ _ => RoomForScan.of_stepEffect notClear) ⟨ranges, ready, busy, running, noMoves⟩ (Nat.le_refl _) room
  have inside : s.off.toNat < len s := inside
  unfold RoomForRecord
  omega

end Sys2Proof.Claims
end

section
/-! Reset, the CTRL write, the operand writes, and the invariants at reset (70_reset_and_hazards.md R450 to R453, R456;
10_state.md R20, R22). -/

namespace Sys2Proof.Machine

/-- A bit of a word as a digit of its value. -/
theorem getLsbD_eq_decide (v : Word) (i : Nat) : v.getLsbD i = decide (v.toNat / 2 ^ i % 2 = 1) := by
  rw [← BitVec.testBit_toNat, Nat.testBit_eq_decide_div_mod_eq]

/-- Reset leaves every register reading 0 (R450). -/
theorem regValue_resetBlock (r : Reg) (s : State) : regValue r (resetBlock s) = 0 := by
  cases r with
  | ctrl => exact BitVec.eq_of_toNat_eq (ctrlWord_toNat _)
  | status =>
    have noStall : stallBit (resetBlock s) = false := rfl
    rw [← BitVec.toNat_inj, regValue, statusWord_toNat, noStall]
    simp [busyBit, outNeBit, codeBits, State.reset]
  | oggSeq => exact Claims.oggSeqWord_eq_flags _
  | _ => rfl

/-- A W-busy-ignored write, by phase (R20). -/
theorem whenIdle_eq_ite (s t : State) : whenIdle s t = if s.phase = .idle then t else s := by
  unfold whenIdle
  cases s.phase <;> rfl

/-- The OPEN parameters are brought into the ranges of 00_scope.md R7. -/
theorem params_wellFormed : Config.params.wellFormed = true := by
  have belowCap : Config.ibufCapRaw % 2 ^ 31 < 2 ^ 31 := Nat.mod_lt _ (by decide)
  exact Claims.wellFormed_iff.2 ⟨Nat.succ_pos _, belowCap, Nat.le_add_left _ _, Nat.zero_le _⟩

end Sys2Proof.Machine

namespace Sys2Proof.Claims

open Sys2Proof.Machine

/-- Settles O4: the reset input is `resetBlock`, which keeps IBUF and the parameters only. -/
theorem resetClearsAllButIbuf : Obligations.ResetClearsAllButIbuf := fun s =>
  ⟨resetBlock s, rfl, fun r => regValue_resetBlock r s, rfl, rfl, rfl, rfl, rfl, rfl, rfl, rfl, rfl⟩

/-- Settles O5: SRST and IE are bits 1 and 0 of the written word. -/
theorem ctrlWriteResetsOrSetsIe : Obligations.CtrlWriteResetsOrSetsIe := by
  intro s v
  have write : takeMove (.regWrite 0x00 32 v) s = .next (writeCtrl v s) := regWrite_regOffset .ctrl v s
  rw [write, writeCtrl, getLsbD_eq_decide, getLsbD_eq_decide]
  simp only [decide_eq_true_eq, Nat.pow_one, Nat.pow_zero, Nat.div_one]
  split <;> rfl

/-- Settles O10. -/
theorem operandWritesOnlyWhileIdle : Obligations.OperandWritesOnlyWhileIdle := by
  intro s v
  simp only [← whenIdle_eq_ite]
  exact ⟨regWrite_regOffset .bufLen v s, regWrite_regOffset .arg0 v s, regWrite_regOffset .arg1 v s⟩

/-- Settles O56: nothing runs at reset, and the page-sequence state is that of a reset block. -/
theorem invariantsHoldAtReset : Obligations.InvariantsHoldAtReset :=
  ⟨⟨params_wellFormed, rfl, rfl, Nat.zero_le _⟩, .of_idle rfl, .resetBlock State.reset, .of_idle rfl⟩

end Sys2Proof.Claims
end
